-- ==== Sys2Proof/Word.lean ====
section
/-! DEFINITION. The word types of the NV7480 and the numbers that name its units. -/
namespace Sys2Proof

/-- One byte. -/
abbrev Byte := BitVec 8
/-- A D-space, parameter or delay-memory word (R126). -/
abbrev Half := BitVec 16
/-- A host register, a mailbox word, a Q1.31 sample (R176). -/
abbrev Word := BitVec 32
/-- A packet, an engine value, the system counter (R72, R108, R305). -/
abbrev Quad := BitVec 64

/-- Sample engines SE0 to SE19. -/
abbrev EngId := Fin 20
/-- Tiles 0 to 3. -/
abbrev TileId := Fin 4
/-- Output groups G0 to G15. -/
abbrev GrpId := Fin 16
/-- Audio ports as the commands number them: 0 to 7 are SAP0 to SAP7, 8 to 11 are AES0 to AES3. -/
abbrev PortId := Fin 12
/-- Microphones 0 to 15. -/
abbrev MicId := Fin 16
/-- Power-stage channels CH0 to CH15. -/
abbrev ChanId := Fin 16
/-- Boost controllers BC0 to BC3 and their rail groups. -/
abbrev RailId := Fin 4
/-- Saddles 0 to 7. -/
abbrev SadId := Fin 8
/-- Generators 0 to 15. -/
abbrev GenId := Fin 16
/-- Noise zones 0 to 15. -/
abbrev ZoneId := Fin 16
/-- Synthesizers as CLK_UNLOCK codes them: 0 SYS, 1 LNK, 2 to 5 AS0 to AS3. -/
abbrev SynId := Fin 6
/-- Mailboxes of one direction. -/
abbrev BoxId := Fin 4
/-- Ridge ports: 0 EAST, 1 WEST, 2 SPUR. -/
abbrev RidgeId := Fin 3

end Sys2Proof
end

