-- ==== Sys2Proof/Syntax.lean ====
section
/-! DEFINITION. The commands of the NV7480: one constructor per row of the opcode table, with the operands each row
needs. An operand is what the row brings from outside the device (a frame's words, a measured value, a message) or the
object the row is about (an engine, a port, a channel). -/
namespace Sys2Proof

/-- A reference source, coded as setting 0x20 and CLKSTAT.ACTSRC code it (Table 14.4, Table 19.6). -/
inductive RefSrc where
  | refclk | ridge | sap0 | aes0 | spur
deriving DecidableEq, Repr

/-- The two reference families of R285. -/
inductive Family where
  | f44 | f48
deriving DecidableEq, Repr

/-- A message as a mailbox holds it: the mailbox, LEN and the sixteen words (R362, R372). -/
structure Msg where
  box : BoxId
  len : BitVec 5
  w   : Vector Word 16
deriving DecidableEq, Repr

/-- A memory with its own write-back holder (R146). -/
inductive WbMem where
  | p (e : EngId) | d (e : EngId) | delay (t : TileId) (bank : Fin 16)
deriving DecidableEq, Repr

/-- The preambles of an AES3 subframe (R227). -/
inductive Preamble where
  | x | y | z
deriving DecidableEq, Repr

/-- A subframe of 32 time slots: its preamble, and time slots 4 to 31 as bits 0 to 27 (R227). -/
structure SubFrame where
  pre   : Preamble
  slots : BitVec 28
deriving DecidableEq, Repr

/-- What the balls of a port bring for one frame. A SAP port: FS, DI0 and DI1 at every sampling edge of BCK from the frame's start edge
on, up to the edge at which the port judges the frame (R206, R207). An AES port: the subframes, whether a biphase-mark violation was among
them, and the frame rate in Hz that the receiver recovers (R224, R227). -/
structure RxFrame where
  edges   : List (Bool × Bool × Bool)
  subs    : List SubFrame
  bmcBad  : Bool
  rate    : Nat
  /-- system-counter offset of the frame's start edge from the counter's present value, within the ±2 counts of R233 -/
  stampAt : Int
deriving DecidableEq, Repr

/-- The five apparent resistances of a diagnostic in 0.1 Ω (R263, R265). -/
structure DiagVals where
  gndA : Nat
  gndB : Nat
  supA : Nat
  supB : Nat
  load : Nat
deriving DecidableEq, Repr

def DiagVals.zero : DiagVals := { gndA := 0, gndB := 0, supA := 0, supB := 0, load := 0 }

/-- Readings of the temperature sensors in 0.1 °C (R273). -/
structure Temps where
  ntc : Vector Int 16
  pcd : Int
  die : Int
deriving DecidableEq, Repr

/-- A demodulated line-supervision window: Z in mΩ (real and imaginary) and whether the column carried too much
between 28 and 32 kHz (R276). -/
structure LineZ where
  re   : Int
  im   : Int
  loud : Bool
deriving DecidableEq, Repr

/-- What a device has free for a placement (R338): groups, SPARE engines, transmit columns and taps by mask, and the delay blocks
that are taken or excluded, by tile. -/
structure DevFree where
  groups : BitVec 16
  engs   : BitVec 20
  tx     : BitVec 64
  taps   : BitVec 128
  taken  : Vector (List Nat) 4
deriving DecidableEq, Repr

/-- A device on the ring as a formation meets it: the manager's challenge to it and its answer, where there was one (R419), whether the
manager sent it a position (what a device that is not the manager sees of that), the one-way delay of the link to its eastern neighbour in
core cycles (R313, R324). -/
structure RingDev where
  serial  : Quad
  role    : BitVec 2
  pairId  : Bool
  counter : Quad
  asked   : Option (BitVec 256 × BitVec 384)
  placed  : Bool
  delay   : Nat
  free    : DevFree
deriving DecidableEq, Repr

/-- The summit's challenge to a manager that joins on SPUR, by SEGID and serial number, and the answer to it (R419). -/
structure JoinTest where
  segid     : BitVec 3
  serial    : Quad
  challenge : BitVec 256
  answer    : BitVec 384
deriving DecidableEq, Repr

/-- A received link frame, lane by lane (R314, R315): the port and SPUR lane it came on, the measured delay of that link in core
cycles (R324), the payload before block 0, and the blocks as they were on the line: sync header and scrambled payload. A frame on
SPUR has one lane, the first; with it comes the test of a join, for which the manual names no slot: none where the summit makes none. -/
structure RxLink where
  port   : RidgeId
  lane   : Fin 2
  delay  : Nat
  prev   : Vector Quad 2
  blocks : Vector (List (BitVec 2 × Quad)) 2
  joins  : Option JoinTest
deriving DecidableEq, Repr

/-- What the peripheral port sees while it runs an entry (R426, R430): the levels of PDI at the rising edges of PCK, a bit that is not
given low by the pull-down, and the word before which PRDY is sampled low, if any. -/
structure PeriIo where
  pdi     : List Bool
  pauseAt : Option Nat
deriving DecidableEq, Repr

/-- Levels of the strap balls when internal reset ends (R26, R343, R397, R446). -/
structure Straps where
  role     : BitVec 2
  pairId   : Bool
  hchain   : Bool
  bootsel  : BitVec 3
  testmode : Bool
deriving DecidableEq, Repr

/-- The straps before they are sampled: standalone, direct mode, code 0b000 (log 7). -/
def Straps.reset : Straps := { role := 3, pairId := false, hchain := false, bootsel := 0, testmode := false }

/-- The parameter table of the boot flash (R432): density in bytes, page size, whether it declares a 4 KiB erase and a fast read, and
whether it takes 3-byte addresses only. -/
structure Sfdp where
  density : Nat
  page    : Nat
  erase4  : Bool
  fast    : Bool
  three   : Bool
deriving DecidableEq, Repr

/-- What the ROM meets at start (R396, R398, R411): its self-test, the fuse check, whether a source locked SYS, which
source of REFORDER was first present and its family, and whether the flash answered with a valid SFDP header. -/
structure RomEnv where
  selfTest : Bool
  fusesOk  : Bool
  sysLocks : Bool
  src      : RefSrc
  family   : Family
  flash    : Option Sfdp
deriving DecidableEq, Repr

/-- The instructions of the JTAG port in boundary-scan test mode (R446). -/
inductive Jtag where
  | bypass | sample | extest
deriving DecidableEq, Repr

/-- A fuse programming operation through the fuse port (R395, R396). -/
inductive FuseOp where
  | kh (slot : Fin 4) (hash : BitVec 384)
  | revoke (slot : Fin 4)
  | bootOrder (code : BitVec 4)
  | debugDisable | khLock | orderLock | testLock
deriving DecidableEq, Repr

/-- A copy in a crosspoint entry: the gain in force, or the target of a set (R190). -/
inductive XpPart where
  | cur | setA | setB
deriving DecidableEq, Repr

/-- The edge that ends deep sleep (R422). -/
inductive WakePin where
  | hsel | gpio0
deriving DecidableEq, Repr

/-- The commands. The docstring of a group names the file of spec/ that describes it. -/
inductive Instr where
  -- 01, 07: the tick and the matrix. `laneErr` is the sum by which faulty lanes shift result_k (0 in a sound matrix), `upset` the
  -- crosspoint entries (256 × row + column) that have lost their parity since the boundary before.
  | tickBoundary (laneErr : Int) (upset : List (Fin 131072 × XpPart))
  | checkPatternReplace (pattern : BitVec 256)
  | matrixParityScan
  | matrixResume
  -- 02 to 05: the engines. `bist`: the flag words that the patterns of engines in TEST leave in the tick.
  | packetIssue (e : EngId)
  | unitResult (e : EngId)
  | delayBankGrant (t : TileId) (bank : Fin 16)
  | eccWriteBack (m : WbMem)
  | endWindow (bist : List (EngId × Half))
  -- 06: updates and audition
  | auditionPass (g : GrpId)
  | auditionStart (g : GrpId)
  | auditionTimeout (g : GrpId)
  | crossfadeEnd (g : GrpId)
  | commitGroupReady (n : Fin 16)
  | bankCopyComplete (g : GrpId)
  | restartSpareWaitExpiry (g : GrpId)
  | bistComplete (e : EngId) (passed : Bool)
  | scrub
  | regionClearComplete (e : EngId)
  | sweepEnd (i : GenId)
  -- 08: ports
  | frameReceived (p : PortId) (f : RxFrame)
  | transmitFrameStart (p : PortId)
  | clockStop (p : PortId)
  | clockReturn (p : PortId)
  | marginWindow (p : PortId) (margin : Nat) (rateErr : Int)
  | aesBlockCapture (p : PortId) (ch : Fin 2)
  -- the 64 bits of a microphone in a tick, the first in bit 0
  | pdmSampleComplete (m : MicId) (bits : Quad)
  | micEnableHoldExpiry (m : MicId)
  | micStuckDetect (m : MicId)
  | micRecovery (m : MicId)
  -- 07: saddles; the estimate is in 2^-24
  | saddleRateWindow (x : SadId) (estimate : Nat)
  | saddleRelock (x : SadId)
  -- 10: pins
  | prioNSample (high : Bool)
  | muteNChange (high : Bool)
  -- 09, 10: the power stage
  -- `gap`: whole tick periods without a package-link frame
  | pcdStreamWatchdog (gap : Nat) (refClock : Bool)
  | carrierPeriod (c : ChanId) (bstLowA bstLowB : Bool)
  | railReading (r : RailId) (code : BitVec 12)
  | boostPeriod (r : RailId) (senseUv vbatsMv : Nat)
  | railRecovery (r : RailId)
  | feedbackLost (r : RailId)
  | boostOverload (r : RailId)
  | diagnosticComplete (c : ChanId) (v : DiagVals)
  | currentLimit (c : ChanId) (halfB : Bool) (shuntUv : Int) (step : Fin 8192)
  | retryIntervalExpiry (c : ChanId)
  | dcDetection (c : ChanId)
  | digitalDcMute (c : ChanId)
  | dcMuteReport (c : ChanId)
  | dcMuteRestore (c : ChanId)
  | thermalReading (t : Temps)
  | lineSupervisionWindow (c : ChanId) (z : LineZ)
  | pcdSupplyLow
  | pcdSupplyRestored
  -- 11: clocks
  | referenceLost (src : RefSrc)
  | sourceQualified (src : RefSrc)
  | preferredSourceSwitch (src : RefSrc)
  | synthesizerLock (lnk : Bool) (bucket : Fin 16)
  | synthesizerUnlock (lnk : Bool)
  | asLock (n : Fin 4) (locked : Bool) (bucket : Fin 16)
  | clkoutRestart
  | syncEdge
  | bandBucketMove (y : SynId) (bucket : Fin 16)
  | holdoverLimit
  | fallback
  | refReturn (src : RefSrc) (e : Int) (diff : Int) (bucket : Fin 16)
  -- 12: the ridge link
  | ridgeFrame (f : RxLink)
  -- the lane tells the links of SPUR apart; a ring port has both lanes. `heads`: the sync headers that the lanes have received.
  | portDown (p : RidgeId) (lane : Fin 2) (heads : Vector (List (BitVec 2)) 2)
  | portUp (p : RidgeId) (lane : Fin 2) (heads : Vector (List (BitVec 2)) 2)
  | ringBreak (p : RidgeId)
  | rejoin
  -- the ring from this device eastward, the SEGID that the summit has assigned, and the frame for the counters; `anew`: the segment
  -- forms, or else devices have appeared later
  | segmentFormation (devs : List RingDev) (segid : BitVec 3) (counterAt : Word) (anew : Bool)
  | failover
  | twinCompensation (quiet : Bool) (mask : BitVec 16)
  | routeRestore (id : BitVec 12) (lat : Nat)
  | prbsDetect (p : RidgeId) (lane : Fin 2)
  -- 13, 19: the host port; `clocks` counts HCK cycles from the fall to the rise of HSEL_N
  | nop (cmd : Byte) (clocks : Nat)
  | write (addr : Half) (data : List Word) (clocks : Nat)
  | read (addr : Half) (clocks : Nat)
  | status (clocks : Nat)
  | chainFrameExecute (through : List Quad) (stage : Quad)
  | chainFrameDiscard (clocks : Nat)
  | syscntLo
  | go (b : BoxId) (len : BitVec 5)
  | ack (b : BoxId)
  | hostReset
  | inten (v : Word)
  | registerWrite (addr : Half) (v : Word)
  | intsrcEvent (bit : Fin 6)
  | messageConsume (b : BoxId)
  | outboundSend (b : BoxId)
  | capoHReset
  | keepaliveLapse
  | bulkFragment (m : Msg)
  -- 14: firmware commands, each with its message
  | sysInfo (m : Msg) | sysStatus (m : Msg) | sysQuiet (m : Msg) | sysKeepalive (m : Msg)
  | sysXferOpen (m : Msg) | sysXferDrop (m : Msg) | sysSave (m : Msg) | sysSleep (m : Msg)
  | sysReset (m : Msg) | sysCntclr (m : Msg)
  | clkSet (m : Msg) | clkGet (m : Msg) | clkOutstart (m : Msg) | clkOutstop (m : Msg)
  | clkAs (m : Msg) | clkStatus (m : Msg)
  | portSet (m : Msg) | portGet (m : Msg) | portStart (m : Msg) | portStop (m : Msg)
  | portMask (m : Msg) | portStatus (m : Msg) | portAesGet (m : Msg) | portAesSet (m : Msg)
  | portMic (m : Msg) | portLoop (m : Msg)
  | mtxBatch (m : Msg) | mtxBatchh (m : Msg) | mtxRead (m : Msg) | mtxColread (m : Msg)
  | mtxArm (m : Msg) | mtxGen (m : Msg) | mtxStrike (m : Msg) | mtxSaddle (m : Msg)
  | engStart (m : Msg) | engRemove (m : Msg) | engAudition (m : Msg) | engConfirm (m : Msg)
  | engAbort (m : Msg) | engStatus (m : Msg) | engClear (m : Msg) | engTest (m : Msg)
  | engAudstatus (m : Msg)
  | tuneWrite (m : Msg) | tuneWriteh (m : Msg) | tuneRead (m : Msg) | tuneSwap (m : Msg)
  | pwrSet (m : Msg) | pwrGet (m : Msg) | pwrStart (m : Msg) | pwrStop (m : Msg)
  | pwrLearn (m : Msg) | pwrStatus (m : Msg) | pwrRestart (m : Msg) | pwrDiag (m : Msg)
  | linkStatus (m : Msg) | linkGrant (m : Msg) | linkTx (m : Msg) | linkTap (m : Msg)
  | linkTwin (m : Msg) | linkUntwin (m : Msg) | linkAdmit (m : Msg) | linkRelease (m : Msg)
  | linkPrbs (m : Msg) | linkCfg (m : Msg)
  | graphSubmit (m : Msg) | graphClear (m : Msg)
  | fwInfo (m : Msg) | fwUpdate (m : Msg) | fwConfirm (m : Msg) | fwReboot (m : Msg)
  | secStatus (m : Msg) | secRevoke (m : Msg) | secCred (m : Msg)
  | periXfer (m : Msg)
  | evtEnable (m : Msg) | evtCount (m : Msg) | evtClear (m : Msg)
  | polZone (m : Msg) | polNoise (m : Msg) | polTherm (m : Msg) | polTwin (m : Msg)
  | polMigr (m : Msg) | polKeepalive (m : Msg) | polStatus (m : Msg)
  | maintenanceMigration
  | noiseReading (z : ZoneId)
  | noiseGainStep (z : ZoneId)
  | noiseSourceStale (z : ZoneId)
  | staleHoldExpiry (z : ZoneId)
  -- 16: the peripheral port
  | queueEntry (io : PeriIo)
  | prdyTimeout
  | heldRunExpiry
  -- 15, 17, 18: reset, boot, watchdogs, maintenance
  | resetN (lowNs : Nat)
  | supplyLow
  | internalResetEnd (pins : Straps) (env : RomEnv)
  | bootSourceWaitExpiry
  | handover
  | trialWatchdogExpiry
  | selfConfirm
  | wake (pin : WakePin)
  | capoHWatchdog
  | capoSWatchdog
  | tickWatchdog
  | quietCauseClearTimer (bit : Fin 7)
  | moduleLossOfSignal (p : RidgeId) (asserted : Bool)
  | prdySampledHigh (io : PeriIo)
  | faultedEngineReadout (e : EngId) (retire : Bool)
  | jtagDebugAccess
  | fuseProgramming (op : FuseOp)
  | boundaryScanInstruction (i : Jtag)
deriving DecidableEq, Repr

end Sys2Proof
end

