-- ==== Sys2Proof/Decode.lean ====
section
/-! DEFINITION. The decoder over the rows of the opcode table that give bits. -/
namespace Sys2Proof

/-- The command that a word spells by the table's bits: no row of the NV7480's table gives bits, so no word spells one. The
codes inside a host-port frame and inside a message are decoded where the device decodes them (HostPort.lean, CmdOps.lean),
and an engine packet in Packet.lean. -/
def decodeTableWord (_nbits _w : Nat) : Option Instr := none

end Sys2Proof
end

