-- ==== Sys2Proof/Config.lean ====
section
/-! DEFINITION. What an implementation of the NV7480 fixes and the free values: constants with no body, so that no
proof can see what they are. A statement that mentions one holds whatever it is. Each is named in the assumption log. -/
namespace Sys2Proof.Config

/-- The 64-bit serial number of the SERIAL fuses (R395). -/
opaque serial : BitVec 64
/-- The 256-bit device root secret of the ROOT fuses (R395). -/
opaque root : BitVec 256
/-- The factory band trim of the TRIM fuses: the VALID bit and band code of an entry of a synthesizer (R292, R395). -/
opaque trimBand : Fin 6 → Fin 16 → Bool × BitVec 6

/-- The amplitude that a level in 0.1 dB names (R193 gives the level only); held to the two integers around the exact one. -/
opaque amplitude : Int → Nat
/-- The value of a sine of the given amplitude at a 32-bit phase (R193 bounds its THD+N only); held near amplitude × sin. -/
opaque sine : Nat → BitVec 32 → Rat
/-- The state of a NOISE generator's LFSR when it starts, by its state before. -/
opaque lfsrSeed : BitVec 32 → BitVec 32
/-- The next state of the maximal-length LFSR whose taps R193 does not give. -/
opaque lfsrNext : BitVec 32 → BitVec 32
/-- A NOISE sample of RMS level 0 dBFS: pink or white, LFSR state (R193 gives the spectrum and the level); the amplitude scales it. -/
opaque noise : Bool → BitVec 32 → Rat
/-- The envelope of a CHIME as a fraction, by attack ms, decay ms, ticks since the strike and ticks per second (R193); held between
0 and 1 in the attack and near the exponential after it. -/
opaque chimeEnvelope : Nat → Nat → Nat → Nat → Rat
/-- The phase step of a SWEEP: start word, end word, LOG, ticks run, ticks in all (R193); held near the law. -/
opaque sweepStep : BitVec 32 → BitVec 32 → Bool → Nat → Nat → BitVec 32

/-- The impulse response of a saddle's filter by its ratio in 2^−24 and the distance from its centre in ticks: into M, and out of M
(R196 and R197 give the filters by their passband, attenuation and THD+N; the delay alike at every frequency makes them symmetric). -/
opaque saddleIn : Nat → Rat → Rat
opaque saddleOut : Nat → Rat → Rat
/-- The added delay of a tracking saddle in ticks by the mutes before its lock (Table 07.8); held to 128 ± 2. -/
opaque saddleDelay : Nat → Rat
/-- The taps of the linear-phase FIR decimator of a microphone by their distance from its centre, 1 to 46 (R236 gives it by its passband,
attenuation and group delay); the centre tap makes their sum 1. -/
opaque pdmTap : Nat → Rat
/-- The pole of the 20 Hz high-pass at a rate of M in Hz (R235); held near exp(−2π × 20 / M). -/
opaque pdmPole : Nat → Rat
/-- The interpolator's impulse response at a rate of M in Hz and a distance in half-periods of the carrier from its centre (R240 gives
it by its passband, attenuation and overshoot; linear phase makes it symmetric). -/
opaque interpTap : Nat → Rat → Rat
/-- The four coefficients of the error-feedback noise shaper (R244 gives it by its order and noise level). -/
opaque shaperCoef : Fin 4 → Rat
/-- The current demand of a boost controller in µV on BCPn/BCNn, from r_n and the rail reading in V (R254 names peak-current
regulation and not its law). -/
opaque currentDemand : Rat → Rat → Nat
/-- The part of a boost period at which the voltage on BCPn/BCNn reaches a level, both in µV, from the level and from what the voltage
comes to by 86 % of the period (R254 does not give its course). -/
opaque reachTime : Nat → Nat → Rat
/-- The smoothing factor per sample of the digital DC low-pass at a rate of M in Hz (R271); held near 1 − exp(−T / 100 ms). -/
opaque dcAlpha : Nat → Rat
/-- s / V_meas at a rail reading of 0 V for a command other than 0, where R241 states no quotient (log 32). -/
opaque overZeroRail : Rat → Rat
/-- The angle of an impedance in 0.01°, from its real and imaginary part (R277 reports it, its rounding is not stated); held to the
two integers around the exact angle. -/
opaque angle : Rat → Rat → Int
/-- The phase in turns at which a channel's pilot starts, and the sine of its pilot by half-periods since then (R276 gives frequency
and amplitude); the sine is held near the exact one. -/
opaque pilotPhase : Nat → Rat
opaque pilot : Nat → Nat → Rat
/-- A gain in dB as a linear factor (R272 names the product, not the precision of the conversion); held near 10^(g/20). -/
opaque dbToLinear : Rat → Rat
/-- exp(−T_boost / 200 ms) for a boost period of the given length in seconds (R255); held near the exact value. -/
opaque releaseFactor : Rat → Rat

/-- Whether a RESET_N pulse of the given length in ns between 1 µs and 10 µs resets the device (R455). -/
opaque shortPulseResets : Nat → Bool

/-- SHA-384 of a byte string, named and not defined by 15 (R395, R402). -/
opaque sha384 : List (BitVec 8) → BitVec 384
/-- ECDSA P-384 verification: public key, digest, signature (R402, R403). -/
opaque ecdsaVerify : List (BitVec 8) → BitVec 384 → List (BitVec 8) → Bool
/-- The consist credential that the bytes of a CRED object carry, if the object is one (R417, R419). -/
opaque credOf : List (BitVec 8) → Option (BitVec 384)
/-- HMAC-SHA-384 by key and message, named and not defined by 15 (R416, R419). -/
opaque hmac : List (BitVec 8) → List (BitVec 8) → BitVec 384
/-- The ciphertext of AES-256-GCM by key, nonce and plaintext (R417). -/
opaque gcmCipher : List (BitVec 8) → List (BitVec 8) → List (BitVec 8) → List (BitVec 8)
/-- The tag of AES-256-GCM by key, nonce, additional data and plaintext, named and not defined by 15 (R417). -/
opaque gcmTag : List (BitVec 8) → List (BitVec 8) → List (BitVec 8) → List (BitVec 8) → BitVec 128

/-- Core cycles from receive lane to transmit lane, by direction; held to 400 ns (R321). -/
opaque forwardDelay : Nat → Nat
/-- Frames of a full refresh of the mirror; held to 1 to 256 (R332). -/
opaque refreshFrames : Nat
/-- The SEQ of the last host command that mirrored words carry, by the words (R334; their layout is not given). -/
opaque mirrorSeq : List (BitVec 32) → BitVec 8

/-- The word a device answers where the manual leaves the value open, by a fresh number. -/
opaque freeWord : Nat → BitVec 32

end Sys2Proof.Config
end

