-- ==== Sys2Proof/Machine/State.lean ====
section
/-! DEFINITION. The state of the NV7480 as plain data, with State.reset. INVENTORY.md lists every field with the rule that
names it. Fixed numbers of like things are vectors; memories are canonical sparse lists. -/
namespace Sys2Proof.Machine
open Sys2Proof

/-- A memory of w-bit words: (address, word) pairs, addresses strictly rising, no word equal to zero, which is what an
unlisted address reads as. -/
abbrev Mem (w : Nat) := List (Nat × BitVec w)

/-- A detected state of the check bits of a word (R145): a single-bit error, or a double-bit error. -/
inductive Ecc where
  | single | double
deriving DecidableEq, Repr

/-- What the check bits of one memory say (R145, R149). -/
structure EccState where
  /-- words that hold an error, by address -/
  bad  : List (Nat × Ecc)
  /-- words whose correction has been written back or scrubbed, with the time of that correction -/
  once : List (Nat × Nat)
deriving DecidableEq, Repr

def EccState.clean : EccState := { bad := [], once := [] }

/-! ### Clocks -/

inductive MRate where
  | m44 | m48 | m88 | m96
deriving DecidableEq, Repr

structure AsSyn where
  enabled : Bool
  lock    : Bool
  /-- true: the CORE input, false: REF (R290) -/
  core    : Bool
  nint    : Nat
  nfrac   : Nat
  p       : Nat
deriving DecidableEq, Repr

inductive OutSrc where
  | off | asn (n : Fin 4) | ref
deriving DecidableEq, Repr

inductive OutFormat where
  | lvcmos18 | lvcmos33 | lvds
deriving DecidableEq, Repr

structure ClkOut where
  src     : OutSrc
  d       : Nat
  format  : OutFormat
  arm     : Bool
  /-- the host has started the output and not stopped it -/
  started : Bool
  /-- the output runs: neither stopped nor gated (CLKSTAT.CLKRUN) -/
  running : Bool
  /-- core cycles since the source edge at which the divider last stood at phase 0, negative while a restart waits for it; the level until
  then (R295, R297) -/
  age     : Rat
  early   : Bool
  /-- core cycles for which a gated output still finishes its high phase (R296) -/
  tail    : Nat
deriving DecidableEq, Repr

/-- The steps of a realignment (R303, R304). -/
inductive Realign where
  | none
  /-- fade out: boundaries done, the cycles L_x of the long tick, the factor in force when it was decided -/
  | fadeOut (j lx : Nat) (f : Rat)
  /-- the long tick runs -/
  | longTick (lx : Nat)
  /-- fade in: boundaries done, the factor it starts from -/
  | fadeIn (j : Nat) (f : Rat)
  /-- the columns stay at the factor in force after a loss during a realignment -/
  | held (f : Rat)
deriving DecidableEq, Repr

structure Clk where
  sysCnt   : Quad
  sysHold  : Nat
  tick     : Word
  frame    : Word
  cyc      : Nat
  /-- the time for which the counters have run since reset, in 1/115,605,504,000 s -/
  now      : Nat
  tickRun  : Bool
  mrate    : MRate
  family   : Family
  actSrc   : Option RefSrc
  qual     : List RefSrc
  hold     : Bool
  /-- when this holdover began, its HOLDLIM in ms, and whether that has been reached (R300) -/
  holdAt   : Nat
  holdIn   : Nat
  limitHit : Bool
  /-- the source that was active when holdover began (R300) -/
  lostSrc  : Option RefSrc
  fallback : Bool
  sysLock  : Bool
  lnkLock  : Bool
  asn      : Vector AsSyn 4
  band     : Vector (Vector (Bool × BitVec 6) 16) 6
  bandIn   : Vector (BitVec 6) 6
  bucketIn : Vector (Option (Fin 16)) 6
  refOrder : List RefSrc
  lockWin  : Vector Nat 2
  lockN    : Vector Nat 2
  holdLim  : Nat
  out      : Vector ClkOut 8
  /-- SYNCSRC is FRAME; the frame that is still to come, with its schedule identifier (R297) -/
  syncByFrame : Bool
  syncFrame : Option (Word × Nat)
  /-- core cycles until the restart that a sync edge has ordered (R297) -/
  syncPend : Option Nat
  lastE    : Int
  lastRealign : Bool
  realign  : Realign
  /-- the factor by which the realignment scaled the last C -/
  factor   : Rat
  /-- what the counter, less the counts still held, has to gain at the next boundary: behind is positive (R306) -/
  cntPend  : Int
deriving DecidableEq, Repr

/-! ### Supervision and boot -/

inductive SlotId where
  | a | b
deriving DecidableEq, Repr

/-- Where the running image came from (R397, R406). -/
inductive BootSrc where
  | slot (s : SlotId) | host | link
deriving DecidableEq, Repr

inductive BootPhase where
  /-- internal reset holds the die (R453) -/
  | held
  /-- the ROM works or waits on the head of the remaining sources (R398) -/
  | rom
  | halted (code : BitVec 4)
  | vendorTest
  | boundaryScan
  /-- an image has verified; the ROM is about to hand over (R412) -/
  | verified
  /-- the firmware runs its start, or runs (R415) -/
  | firmware
  | sleeping
deriving DecidableEq, Repr

inductive BootCode where
  | p | h | l
deriving DecidableEq, Repr

structure DirRec where
  dseq     : Word
  slotSize : Nat
  stateA   : Byte
  stateB   : Byte
  active   : Byte
  seqA     : Word
  seqB     : Word
deriving DecidableEq, Repr

/-- What the header of a verified image says (Table 15.5). -/
structure ImgInfo where
  svn      : Byte
  seq      : Word
  release  : Word
  autoconf : Bool
  trialWd  : Nat
deriving DecidableEq, Repr

/-- The record the security engine keeps for a warm restart (R421). -/
structure WarmRec where
  digest : BitVec 384
  svn    : Byte
  src    : BootSrc
  /-- the entry addresses of the two core sections -/
  entry  : Vector Word 2
deriving DecidableEq, Repr

structure Sup where
  quiet       : BitVec 7
  stat        : BitVec 4
  capoHRun    : Bool
  capoSRun    : Bool
  pcdReleased : Bool
  engRun      : Bool
  resetCause  : Nat
  restarting  : Bool
deriving DecidableEq, Repr

/-! ### Host port and mailboxes -/

/-- What a direct-mode frame shifted out on HDO: the status byte, then 32-bit words (R344). -/
structure Hdo where
  statusByte : Byte
  words      : List Word
deriving DecidableEq, Repr

structure Mbi where
  w       : Vector Word 16
  len     : BitVec 5
  go      : Bool
  badlen  : Bool
  aborted : Bool
  busywr  : Bool
  /-- the time at which the tunnel placed the message, until a host write of that core cycle has been applied after it (R359) -/
  placed  : Option Nat
deriving DecidableEq, Repr

structure Mbo where
  w      : Vector Word 16
  len    : BitVec 5
  go     : Bool
  ackerr : Bool
deriving DecidableEq, Repr

structure HostPort where
  ready    : Bool
  badcmd   : Bool
  addrOvr  : Bool
  cfgerr   : Bool
  sysHi    : Word
  tickLat  : Word
  frameLat : Word
  intsrc   : BitVec 6
  inten    : BitVec 6
  scratch  : Word
  resp     : Quad
  hdo      : Hdo
  mbi      : Vector Mbi 4
  mbo      : Vector Mbo 4
deriving DecidableEq, Repr

/-! ### Firmware -/

/-- The place of a response among those of MBO0: bits 23:0 of its W0, the position of the device that answers a forwarded command, and
the response once it is there (R365). -/
structure Turn where
  key : Nat
  pos : Option (Fin 32)
  msg : Option Msg
deriving DecidableEq, Repr

inductive XferKind where
  | program | graph | batch | cred | image
deriving DecidableEq, Repr

structure Handle where
  kind   : XferKind
  size   : Nat
  bytes  : List Byte
  /-- XFER_DONE's status, once it has been raised -/
  status : Option Half
deriving DecidableEq, Repr

/-- A matrix batch entry with its checks passed (Table 14.10). -/
structure BatchEntry where
  kind : Nat
  row  : Nat
  col  : Nat
  val  : Int
deriving DecidableEq, Repr

/-- A placed graph (R338): the map, the commit group, the modules by position, group and engine, what its connections take on each
device by position (crosspoints, transmit columns with their channel, taps with channel and owner), the channels granted, and what
the devices had free before. -/
structure GraphPlan where
  map    : List Word
  cgroup : Fin 16
  mods   : List (Fin 32 × GrpId × EngId)
  xps    : List (Nat × BatchEntry)
  tx     : List (Nat × Nat × Nat)
  taps   : List (Nat × Nat × Nat × Nat)
  grants : List (Nat × Nat)
  inv    : List (Nat × DevFree)
deriving DecidableEq, Repr

/-- A module on its way to another device: its program object, the ENG_AUDITION that waits for the handle, bits 23:0 of W0 of the
SYS_XFER_OPEN that was sent, and the handle. -/
structure Deploy where
  pos    : Fin 32
  obj    : List Byte
  aud    : Msg
  opened : Option Nat
  handle : Option Nat
deriving DecidableEq, Repr

structure Zone where
  on      : Bool
  chans   : BitVec 16
  grp     : GrpId
  chan    : Fin 12
  noiseOn : Bool
  gmax    : Nat
  nref    : Int
  slope   : Nat
  fold    : Bool
  /-- the last readings of the noise row, newest first, at most 100 (R388) -/
  reads   : List Word
  /-- applied noise gain in 0.1 dB -/
  gain    : Nat
  stale   : Bool
  /-- the 10 s hold of R389 is over and the gain falls -/
  falling : Bool
deriving DecidableEq, Repr

/-! ### Sample engines -/

inductive EngState where
  | idle | spare | live | candidate | test | faulted
deriving DecidableEq, Repr

/-- A delay-line descriptor with its write index (Table 05.4). -/
structure Desc where
  base4   : BitVec 20
  n       : BitVec 23
  wcode   : BitVec 2
  inherit : Bool
  w       : BitVec 23
deriving DecidableEq, Repr

def Desc.zero : Desc := { base4 := 0, n := 0, wcode := 0, inherit := false, w := 0 }

/-- A unit whose results arrive after its trigger (R40). -/
inductive ResUnit where
  | lsu | row | dly
deriving DecidableEq, Repr

/-- A result on its way to its port: the unit, the packets still to issue, the value. -/
structure Flight where
  unit : ResUnit
  left : Nat
  val  : Quad
deriving DecidableEq, Repr

/-- What the firmware knows of the loaded program (Table 04.7, R117). -/
structure ProgInfo where
  length  : Nat
  allow   : Nat
  entry   : Nat
  pcount  : Nat
  dcount  : Nat
  pwbase  : Nat
  pwsize  : Nat
  /-- delay table: N, w, INHERIT -/
  dl      : List (Nat × Nat × Bool)
  /-- descriptors through which the trace issues exactly one WRITE and no ADV (R166) -/
  once    : List Nat
  bytes   : List Byte
deriving DecidableEq, Repr

def ProgInfo.empty : ProgInfo :=
  { length := 0, allow := 0, entry := 0, pcount := 0, dcount := 0, pwbase := 0, pwsize := 0, dl := [], once := [],
    bytes := [] }

/-- The registers a program sees, all cleared by R74. -/
structure Regs where
  v    : Vector Quad 32
  a    : Vector (BitVec 24) 8
  m    : Vector (BitVec 24) 8
  l    : Vector (BitVec 24) 8
  b    : Vector (BitVec 24) 8
  ac   : Vector (BitVec 40) 8
  /-- accumulators one and two packets ago: a readout sees the older (R82) -/
  ac1  : Vector (BitVec 40) 8
  ac2  : Vector (BitVec 40) 8
  sp   : Half
  spl  : Half
  macX : Quad
  macY : Quad
  macRC : Quad
  aluB : Quad
  aluC : Word
  selA : Quad
  selB : Quad
  rix  : BitVec 3
  sd   : Quad
  wd   : Quad
  ofs  : BitVec 22
  step : BitVec 22
  osel : Fin 12
  aluR : Quad
  aluEq : Bool
  aluLt : Bool
  aluLtu : Bool
  selR : Quad
  lsuR : Quad
  dlyR : Quad
  row  : Quad
deriving DecidableEq, Repr

def Regs.zero : Regs :=
  { v := .replicate 32 0, a := .replicate 8 0, m := .replicate 8 0, l := .replicate 8 0, b := .replicate 8 0,
    ac := .replicate 8 0, ac1 := .replicate 8 0, ac2 := .replicate 8 0, sp := 0, spl := 0, macX := 0, macY := 0,
    macRC := 0, aluB := 0, aluC := 0, selA := 0, selB := 0, rix := 0, sd := 0, wd := 0, ofs := 0, step := 0, osel := 0,
    aluR := 0, aluEq := false, aluLt := false, aluLtu := false, selR := 0, lsuR := 0, dlyR := 0, row := 0 }

/-- A pending request for a delay-memory bank: the bank and the cycles it has waited (R58). -/
structure BankReq where
  bank   : Fin 16
  waited : Nat
deriving DecidableEq, Repr

structure Engine where
  st      : EngState
  /-- the group: of a LIVE engine the one it owns or is leaving, of a CANDIDATE its target -/
  grp     : Option GrpId
  prog    : ProgInfo
  p       : Mem 64
  d       : Mem 16
  par0    : Mem 16
  par1    : Mem 16
  pEcc    : EccState
  /-- D space by its address; array b, word o of the parameters at 65,536 + 16,384 b + o -/
  dEcc    : EccState
  /-- the write-back holders of P space and of D space with its parameter arrays; one address each (R146) -/
  pHold   : Option Nat
  dHold   : Option Nat
  pCorr   : Word
  dCorr   : Word
  regs    : Regs
  flight  : List Flight
  pc      : BitVec 14
  /-- repetitions of the next packet still to issue after the RPT packet; 0 outside a repeat -/
  rpt     : Nat
  issued  : Nat
  stalls  : Nat
  maxStall : Nat
  flags   : Half
  sticky  : Half
  /-- the engine issues no further packet in this tick (R47) -/
  stopped : Bool
  tickLat : Word
  bankLat : Bool
  bank    : Bool
  out     : Vector Word 12
  latch   : Vector Word 12
  events  : List Quad
  desc    : Vector Desc 64
  /-- kept INHERIT writes: descriptor, entry index, data (R136) -/
  kept    : List (Nat × Nat × Quad)
  req     : Option BankReq
  bistLeft : Nat
  retired : Bool
  /-- a fault bit was found set in the end window; the state changes at the boundary (R68) -/
  faultDue : Bool
  /-- a restarted program waits for its regions to be cleared (R45) -/
  clearing : Bool
  /-- the firmware tests the engine as soon as it is SPARE (R149, ENG_TEST) -/
  testDue  : Bool
  /-- the BIST result of the run, once it has been reported; a fault that the patterns have shown (R68, R483) -/
  bist     : Option Bool
  bistBad  : Bool
  /-- a FAULTED engine whose blocks still have the tag of the group it owned (R143) -/
  holds    : Bool
deriving DecidableEq, Repr

/-- A tile's shared delay memory (R126, R133). -/
structure TileMem where
  mem      : Mem 16
  ecc      : EccState
  /-- pending write-backs, by bank (R146) -/
  wb       : Vector (Option Nat) 16
  corr     : Word
  /-- owner tags; a block that is not listed is free, 0x1F -/
  owner    : List (Nat × BitVec 5)
  excluded : List Nat
deriving DecidableEq, Repr

/-! ### Groups and auditions -/

/-- The measures of one monitored channel (Table 06.3). -/
structure Measure where
  peak    : Nat
  /-- sums over the running window: squares, values, ticks -/
  sq      : Nat
  sum     : Int
  ticks   : Nat
  /-- sum of squares of the last complete window -/
  lastSq  : Option Nat
  maxSq   : Option Nat
  maxDc   : Option Nat
  /-- the largest growth as a pair of sums of squares (later, earlier) -/
  growth  : Option (Nat × Nat)
  sat     : Nat
  null    : Option Nat
deriving DecidableEq, Repr

def Measure.zero : Measure :=
  { peak := 0, sq := 0, sum := 0, ticks := 0, lastSq := none, maxSq := none, maxDc := none, growth := none, sat := 0,
    null := none }

inductive Verdict where
  | running | pass | fail | committed | aborted
deriving DecidableEq, Repr

/-- Limits of Table 06.3; none is OFF. Levels in 0.01 dB. -/
structure Criteria where
  peak   : Option Int
  rms    : Option Int
  growth : Option Int
  dc     : Option Int
  sat    : Option Nat
  /-- none OFF; some none EXACT; some (some l) a limit -/
  null   : Option (Option Int)
deriving DecidableEq, Repr

/-- The use of a spare (Table 06.1). -/
inductive SpareUse where
  | restart | host | maintenance
deriving DecidableEq, Repr

structure Audition where
  use      : SpareUse
  cand     : EngId
  same     : Bool
  n        : Nat
  settle   : Nat
  window   : Nat
  crit     : Criteria
  confirm  : Bool
  timeout  : Nat
  k        : Nat
  cgroup   : Fin 16
  /-- its request came through the tunnel: the manager sets the frame of its commit group (R170, log 131) -/
  joined   : Bool
  /-- of a fault restart, the tile of the engine that faulted (Table 06.1) -/
  home     : TileId
  inherit  : Bool
  /-- loaded and waiting for its boundary, or frame -/
  waiting  : Bool
  ran      : Nat
  verdict  : Verdict
  confirmed : Bool
  meas     : Vector Measure 12
  events   : Nat
  /-- the audition has ended -/
  ended    : Bool
deriving DecidableEq, Repr

structure Crossfade where
  /-- the outgoing engine; none when the group had no owner or it has faulted -/
  outgoing : Option EngId
  /-- the blocks that the outgoing engine reached at T, and their tile -/
  blocks   : List Nat
  tile     : TileId
  k        : Nat
  j        : Nat
deriving DecidableEq, Repr

/-- The 32-tick fade of a group's rows (R69). -/
structure GroupFade where
  vals : Vector Word 12
  j    : Nat
deriving DecidableEq, Repr

/-- A fault restart that waits: the faulted engine's program, its live array and IO.BANK, the tick from which its 64 ticks count and the
engine's tile (R154, R172). -/
structure Restart where
  prog : ProgInfo
  live : Mem 16
  bank : Bool
  tick : Word
  tile : TileId
  /-- the fault came while Capo-H restarted: the ticks count from FW_RESTART (R439) -/
  down : Bool
deriving DecidableEq, Repr

structure Group where
  owner    : Option EngId
  fade     : Option GroupFade
  xf       : Option Crossfade
  aud      : Option Audition
  /-- the time of each fault restart of the last 3,600 s (R172) -/
  restarts : List Nat
  waiting  : Option Restart
  givenUp  : Bool
  evLost   : Word
  /-- the first boundary at which R152 allows the next swap -/
  copyTo   : Option Word
  /-- the copy of R152 runs and TUNE writes are held -/
  copying  : Bool
deriving DecidableEq, Repr

/-! ### Changes and the firmware -/

/-- What a candidate is loaded with: the program, its images, both parameter arrays and IO.BANK (R117, R150). -/
structure Loading where
  info : ProgInfo
  p    : Mem 64
  d    : List Half
  a0   : Mem 16
  a1   : Mem 16
  bank : Bool
deriving DecidableEq, Repr

/-- A change that the firmware has prepared and the device applies at a boundary (R21, R156). -/
inductive Change where
  | swap (mask : BitVec 16) (reply : Option Msg)
  | batch (entries : List BatchEntry)
  | confirm (g : GrpId)
  | commitGroup (n : Fin 16)
  | abort (g : GrpId) (cause : Nat)
  | remove (g : GrpId)
  | start (g : GrpId) (e : EngId)
  | audition (g : GrpId)
  /-- load a candidate on an engine that a preemption has freed; its audition starts at the frame, or at the next boundary; and the
  group's last audition -/
  | place (g : GrpId) (a : Audition) (l : Loading) (frame : Option Word) (was : Option Audition)
  | readOut (e : EngId) (retire : Bool)
  | arm (b : Bool) (rp : Nat)
  | gen (i : GenId) (ty : Nat) (ps : List Int)
  | strike (mask : BitVec 16)
  | rate (m : MRate)
  | engTest (e : EngId)
  | freeBlocks (t : TileId) (g : GrpId) (blocks : List Nat)
  | clkSet (pairs : List (Nat × Nat × Int))
  | tx (i : Fin 64) (chan : Option (Nat × Nat))
  | counter (diff : Int)
  /-- a placed graph, or none to clear the present one -/
  | graph (plan : Option GraphPlan)
deriving DecidableEq, Repr

/-- When a change is due: at the next boundary, at a tick number, or at a link frame, with the identifier of the schedule that has
come for it. -/
inductive Due where
  | next
  | tick (k : Word)
  | frame (f : Word) (id : Option Nat)
deriving DecidableEq, Repr

structure Sched where
  due    : Due
  change : Change
deriving DecidableEq, Repr

structure Fw where
  /-- step 8 of R415 is complete -/
  started  : Bool
  /-- a restarted Capo-H reads its LIVE engines back (R415, R439) -/
  reading  : Bool
  q        : Vector (List Msg) 4
  evSeq    : Byte
  /-- every event is disabled but those of evExc; while it is false, every event is enabled but those (R387) -/
  allOff   : Bool
  evExc    : List Nat
  loss     : Word
  drop0    : Word
  drop3    : Word
  lostHeld : Bool
  handle   : Vector (Option Handle) 8
  outHandle : Nat
  /-- SYS_SLEEP is under way: its wake mask, and the command until it is answered (R422) -/
  sleep    : Option (BitVec 2 × Option Msg)
  kaInt    : Nat
  kaQuiet  : Bool
  kaLapsed : Bool
  sched    : List Sched
  /-- the schedules that were made here: identifier, KIND, frame (R157) -/
  made     : List (Nat × Nat × Word)
  heldTune : List (GrpId × Nat × List Half)
  zone     : Vector Zone 16
  twinOn   : Bool
  raise    : Nat
  /-- channels whose saturated post-gain has been reported since their offset last changed (R394) -/
  clamped  : BitVec 16
  restartOn : Bool
  migrHours : Nat
  migrNext : EngId
  /-- outbound bulk fragments that wait for room in the queue of MBO1 (R370) -/
  bulkOut  : List Msg
  /-- responses that wait for the standby's acknowledgement of a mirror sequence number (R332) -/
  mirrorWait : List (BitVec 12 × Msg)
  /-- responses on MBO0 from the first one on that is still to come, in the order of their commands (R365, R378) -/
  line     : List Turn
deriving DecidableEq, Repr

/-! ### Matrix -/

/-- A ramp of a gain (R180): start gain, boundaries done, length. -/
structure Ramp where
  g0 : Int
  j  : Nat
  r  : Nat
deriving DecidableEq, Repr

structure Xp where
  cur  : Int
  a    : Int
  b    : Int
  ramp : Option Ramp
deriving DecidableEq, Repr

def Xp.zero : Xp := { cur := 0, a := 0, b := 0, ramp := none }

inductive ScaleMode where
  | off | inv | invSqrt
deriving DecidableEq, Repr

structure Col where
  hostA : Int
  hostB : Int
  a     : Int
  b     : Int
  cur   : Int
  ramp  : Option Ramp
  rc    : Nat
  mode  : ScaleMode
  f     : Nat
  sat   : Word
deriving DecidableEq, Repr

def Col.reset : Col :=
  { hostA := 16384, hostB := 16384, a := 16384, b := 16384, cur := 16384, ramp := none, rc := 480, mode := .off,
    f := 16777216, sat := 0 }

structure RowDet where
  theta : Int
  holdMs : Nat
deriving DecidableEq, Repr

/-- A matrix fault being handled (R191, R192): the columns it fades from and the boundaries of the fade done. -/
structure MtxFault where
  held   : Vector Word 256
  j      : Nat
  /-- a second fault within 60 s: the matrix does not resume -/
  second : Bool
deriving DecidableEq, Repr

structure Mtx where
  xp      : List (Nat × Xp)
  cols    : Vector Col 256
  rows    : Vector RowDet 512
  /-- the last snapshots, newest first, for the detectors (R186) -/
  hist    : List (Mem 32)
  selB    : Bool
  armed   : Bool
  rp      : Nat
  prio    : Bool
  snap    : Mem 32
  col     : Vector Word 256
  colPrev : Vector Word 256
  /-- the last C before a realignment fade scales it (R304) -/
  raw     : Vector Word 256
  /-- the same of the tick before -/
  rawPrev : Vector Word 256
  pattern : BitVec 256
  parity  : List (Nat × XpPart)
  fault   : Option MtxFault
  /-- the time of the last resumption (R192) -/
  resumed : Option Nat
deriving DecidableEq, Repr

/-- A fraction that moves linearly: its value, its goal and its step. -/
structure Lin where
  v    : Rat
  goal : Rat
  step : Rat
deriving DecidableEq, Repr

/-! ### Generators, saddles, ports, microphones -/

/-- A partial: phase-step word, level in 0.1 dB, phase, the amplitudes at the start and at the end of its level ramp, and the boundaries of
that ramp done, 64 when it is over. -/
structure Partial where
  step  : Word
  level : Int
  phase : Word
  a0    : Nat
  a1    : Nat
  j     : Nat
deriving DecidableEq, Repr

inductive GenType where
  | stop | sine | chime | noise | sweep | pilot
deriving DecidableEq, Repr

structure Gen where
  ty     : GenType
  /-- the partials; NOISE keeps its level in the first -/
  parts  : List Partial
  attack : Nat
  decay  : Nat
  /-- ticks since the last STRIKE of a CHIME -/
  struck : Option Nat
  pink   : Bool
  lfsr   : Word
  /-- SWEEP: end word, duration ms, LOG, ticks run -/
  endStep : Word
  durMs  : Nat
  log    : Bool
  ran    : Nat
  /-- the level ramps to zero and the generator stops -/
  stopping : Bool
deriving DecidableEq, Repr

def Gen.stopped : Gen :=
  { ty := .stop, parts := [], attack := 0, decay := 0, struck := none, pink := false, lfsr := 0, endStep := 0,
    durMs := 0, log := false, ran := 0, stopping := false }

inductive SadState where
  | unbound | muted | running
deriving DecidableEq, Repr

structure Saddle where
  st       : SadState
  port     : Option PortId
  tracking : Bool
  /-- ratio code of setting 0x07 -/
  ratio    : BitVec 3
  /-- the estimate of the last window in 2^-24 -/
  est      : Option Nat
  cause    : Nat
  mutes    : Word
  /-- the ramp of its rows -/
  fade     : Lin
  out      : Vector Word 4
  inp      : Vector Word 2
  /-- the frames taken from the port, each with the time at which it was complete, and the columns taken in, newest first; what is due of the
  next frame of each direction, in parts of a frame (R196) -/
  rxHist   : List (Nat × (List Word × List Word))
  txHist   : List (Vector Word 2)
  rxAcc    : Nat
  txAcc    : Nat
deriving DecidableEq, Repr

def Saddle.unbound : Saddle :=
  { st := .unbound, port := none, tracking := false, ratio := 0, est := none, cause := 0, mutes := 0,
    fade := { v := 0, goal := 0, step := 0 }, out := .replicate 4 0, inp := .replicate 2 0, rxHist := [], txHist := [],
    rxAcc := 0, txAcc := 0 }

inductive PortState where
  | off | wait | run | stopping | lost
deriving DecidableEq, Repr

inductive PortMode where
  | tdm | i2s | lj
deriving DecidableEq, Repr

inductive Binding where
  | m | saddle (s : SadId) (tracking : Bool) (ratio : BitVec 3)
deriving DecidableEq, Repr

structure PortCfg where
  mode    : PortMode
  slots   : Nat
  width   : Nat
  delay   : Nat
  fall    : Bool
  fspolLow : Bool
  binding : Binding
  clksrc  : Option (Fin 8)
  rxbase  : Nat
  txbase  : Nat
  txHiz   : Bool
  stopq   : Nat
  block   : Nat
  stampDiv : Nat
deriving DecidableEq, Repr

structure Masks where
  in0  : Word
  in1  : Word
  out0 : Word
  out1 : Word
deriving DecidableEq, Repr

/-- A fade of a port's, a channel's or a microphone's rows: the factor in force (R221, R223). -/
abbrev PortFade := Lin

/-- One channel of an AES port (R228 to R232). -/
structure AesCh where
  status   : Option (Vector Byte 24)
  user     : BitVec 192
  validity : BitVec 192
  txStatus : Vector Byte 24
  txUser   : Vector Byte 24
  crcc     : Bool
  v        : Bool
  /-- programmed values that take effect at the next Z preamble -/
  next     : Option (Vector Byte 24 × Vector Byte 24 × Bool × Bool)
  parErr   : Word
  crcErr   : Word
  vRun     : Nat
  goodRun  : Nat
  muted    : Bool
  fade     : PortFade
  sample   : Word
  /-- V, U and C bits of the block that runs, newest first, empty before a Z preamble; a whole block that was captured (R229) -/
  cap      : List (Bool × Bool × Bool)
  full     : Option (List (Bool × Bool × Bool))
deriving DecidableEq, Repr

structure Port where
  st      : PortState
  cfg     : PortCfg
  masks   : Masks
  shadow  : Option Masks
  /-- the transmit masks that the frames follow (R221) -/
  outNow  : Word × Word
  /-- the factor of the rows, and that of the transmit data, which a bound port's fade moves frame by frame (R223) -/
  fade    : PortFade
  txFade  : PortFade
  /-- transmit data still fade after a change of the rate of M (R214) -/
  txTail  : Bool
  good    : Nat
  /-- the port fixed its mapping and enters RUN at the next boundary -/
  toRun   : Bool
  /-- frames completed in this tick -/
  done    : Nat
  /-- frames completed and not handed over, oldest first (R215); the elastic buffer of a bound port (R217) -/
  rxBuf   : List (List Word × List Word)
  /-- when the frames in the elastic buffer were complete, and when the last transmit frame of a bound port started (R196) -/
  rxAt    : List Nat
  txAt    : Nat
  /-- the frame last handed over -/
  last    : List Word × List Word
  txBuf   : List (List Word)
  /-- the buffers of a bound port have been filled to 4 frames since it entered RUN (R217) -/
  rxReady : Bool
  txReady : Bool
  /-- transmit frames started in this tick -/
  txDone  : Nat
  txData  : List Word
  /-- the slot words of the transmit frame that last started: line 0, line 1 (none is high impedance) -/
  tx0     : List (Option Word)
  tx1     : List (Option Word)
  /-- what each line carries until the first bit of that frame: the last bit of the one before (R209) -/
  txEnd   : Option Bool × Option Bool
  /-- the subframes of the AES frame that last started (R232) -/
  txSubs  : List SubFrame
  stopLeft : Nat
  rxSlip  : Word
  txSlip  : Word
  glitch  : Word
  lostCnt : Word
  glitchRun : Nat
  /-- glitches already counted in a frame whose successor has not started (R207) -/
  overdue : Nat
  /-- the times of the slips of the last second, per direction -/
  rxSlips : List Nat
  txSlips : List Nat
  margin  : Nat
  rateErr : Int
  blockNo : Word
  blockPos : Nat
  blockOn : Bool
  stamp   : Quad
  txFrame : Nat
  /-- PORT_LOOP is on; it was ordered off and ends at the next frame boundary; a slot word was in error (R444) -/
  loop    : Bool
  loopOff : Bool
  loopErr : Bool
  aes     : Vector AesCh 2
deriving DecidableEq, Repr

structure Mic where
  on     : Bool
  hp     : Bool
  /-- ticks of the 256 since it was enabled or recovered; none when the hold is over -/
  hold   : Option Nat
  stuck  : Bool
  fade   : PortFade
  sample : Word
  /-- the comb decimator's last input word and outputs, newest first (R236) -/
  bits   : Quad
  combs  : List Int
  /-- input and output of the 20 Hz high-pass, the output in 2^−32 of a step (R235) -/
  hpIn   : Int
  hpOut  : Int
  /-- sampling edges for which the data have not changed, at most 4,096, and ticks since that was last reached, at most 256 (R237) -/
  still  : Nat
  alive  : Nat
  /-- the 4,096 edges were reached within the last tick -/
  hit    : Bool
deriving DecidableEq, Repr

/-! ### Power stage -/

inductive ChState where
  | off | rampUp | run | rampDown | diag | diagFail | tripped | locked | hot | railWait | railLatch
deriving DecidableEq, Repr

/-- Why a channel is going quiet with its ramp (R278). -/
inductive StopWhy where
  | stop | thermal | quiet | sleep | stream
deriving DecidableEq, Repr

structure ChCfg where
  vfs      : Nat
  cmramp   : Nat
  deadtime : Nat
  ilim     : Nat
  tFold    : Int
  tStop    : Int
  foldMax  : Int
  lsup     : Bool
  lsdev    : Nat
deriving DecidableEq, Repr

/-- One switching of a gate within a carrier period: the step of q from the period's start, the high side or the low side, on or
off (R247). -/
structure Gate where
  step : Nat
  high : Bool
  on   : Bool
deriving DecidableEq, Repr

/-- One half of a channel. -/
structure Bridge where
  /-- offsets before and after the centre, in steps of q, of the interval last computed (R243) -/
  edge  : Nat × Nat
  /-- the noise shaper's last four edge errors, newest first (R244) -/
  err   : List Rat
  /-- periods before the present one without 256 low steps in a row; a refresh is due at the next period's start (R246) -/
  noLow : Nat
  due   : Bool
  /-- low steps in a row at the present period's start; the longest run of low steps in it, and the run open at its end (R246) -/
  lowIn : Nat
  low   : Nat × Nat
  /-- at the switch node in the present period: the interval to the rail, the level at its end, none for both gates low, and the
  switchings of the gates (R13, R247) -/
  out   : Nat × Nat
  level : Option Bool
  gates : List Gate
deriving DecidableEq, Repr

/-- A sample of the look-ahead buffer: its age in core cycles since the boundary that placed it there, and the rate of M at which it
was made (R13, R240, R259). -/
structure Look where
  v    : Word
  age  : Nat
  rate : MRate
deriving DecidableEq, Repr

structure Chan where
  st       : ChState
  cfg      : ChCfg
  /-- common-mode duty, 0 to 1/2, and its step per carrier period (R249) -/
  duty     : Rat
  dutyStep : Rat
  /-- the ramp that runs has ended; RUN starts at the next boundary (R250) -/
  toRun    : Bool
  /-- a stop was ordered: RAMP_DOWN begins once g_ch is 0 (R251) -/
  stopWhy  : Option StopWhy
  /-- the governing source of a fold or a thermal stop (R273) -/
  hotSrc   : Nat
  gch      : Lin
  /-- g_ch falls to play out the old rate of M (R259) -/
  rateFall : Bool
  gth      : Rat
  folding  : Bool
  gdc      : Lin
  /-- ILIM and LSUP since the last start or retry, and LSDEV since the window began (R284, Table 10.4) -/
  ilimIn   : Nat
  lsupIn   : Bool
  lsdevIn  : Nat
  /-- column samples, newest first (R13, R240) -/
  look     : List Look
  /-- half-periods of the carrier since the last boundary; readings of the rail ADC since the period began while its second half is still to be
  computed (R241) -/
  half     : Int
  mid      : Option Nat
  u1       : Rat
  u2       : Rat
  bridgeA  : Bridge
  bridgeB  : Bridge
  /-- computed intervals of halves A and B on their way to the switch nodes, newest first, at most 4 (R13) -/
  pipe     : List ((Nat × Nat) × (Nat × Nat))
  clipped  : Bool
  clip     : Word
  /-- limited flags of the last 384 carrier periods, newest first (R267, R278) -/
  limited  : List Bool
  limNow   : Option (Bool × Bool)
  /-- the channel tripped in the present carrier period (R262) -/
  tripNow  : Bool
  /-- the times of the limited periods of the last second, newest first, and the time from which PWR_ILIM may come again (R267) -/
  ilims    : List Nat
  ilimNext : Nat
  /-- the times of the trips (R269) -/
  trips    : List Nat
  retrying : Bool
  wasRun   : Bool
  /-- a diagnostic of PWR_DIAG runs while the channel stays in OFF (R263) -/
  diagOnly : Bool
  cls      : Nat
  diag     : DiagVals
  ntc      : List Int
  ntcBad   : Bool
  /-- Z of the last valid window in mΩ; the signature Z_sig, a mean of 10 (R277) -/
  zNow     : Int × Int
  zSig     : Option (Rat × Rat)
  learn    : List (Int × Int)
  learning : Bool
  /-- a half-period was clamped or a period limited in the present window (R276) -/
  winBad   : Bool
  devRun   : Nat
  okRun    : Nat
  /-- the rows' sums of a digital DC mute, the ticks in them, and the time at which they are complete (R271) -/
  dcAcc    : List (Nat × Int)
  dcTicks  : Nat
  dcUntil  : Nat
  /-- the report of a digital DC mute is still to come (R271) -/
  dcOpen   : Bool
  /-- the 100 ms low-pass of the column in 2^−32 of a step, and core cycles for which it has stayed at 0.1 × 2^31 or above and below
  0.05 × 2^31 (R271) -/
  dcLp     : Int
  dcHigh   : Nat
  dcLow    : Nat
  /-- half-periods since the pilot began (R276) -/
  pilotN   : Nat
  /-- T_FOLD_FET and T_STOP_FET as they stood at the last reading (R284) -/
  fetIn    : Int × Int
deriving DecidableEq, Repr

inductive BoostMode where
  | pass | fixed | track
deriving DecidableEq, Repr

structure Rail where
  mode     : BoostMode
  vmax     : Nat
  vidle    : Nat
  headroom : Nat
  ratio    : Nat
  bilim    : Nat
  /-- the rail reference r_n in V -/
  ref      : Rat
  /-- BGn switches in the present boost period; the part of the period after which it turns off; its on-time ends at BILIM (R254) -/
  bg       : Bool
  bgOn     : Rat
  atLimit  : Bool
  /-- the group's last channel in RUN or a ramp tripped, and none has started since (R268) -/
  idle     : Bool
  latched  : Bool
  code     : BitVec 12
  /-- consecutive readings above 64.0 V, at most 8, and below 7.0 V, at most 64 (Table 09.5) -/
  overRun  : Nat
  underRun : Nat
  /-- consecutive readings below VBATS − 3.0 V while BGn switches and at 8.5 V or more, and boost periods in a row that reached BILIM, each
  up to what Table 09.5 asks for -/
  fbRun    : Nat
  upRun    : Nat
  ovlRun   : Nat
  highHold : Bool
  /-- the times from which PWR_RAIL_HIGH, PWR_SHORTFALL and PWR_BOOST_OVL may come again -/
  highNext : Nat
  shortNext : Nat
  ovlNext  : Nat
  /-- boost periods since the last tick boundary -/
  bp       : Nat
  /-- VMAX, VIDLE and HEADROOM as they stood at the last boundary (R258) -/
  vmaxIn   : Nat
  vidleIn  : Nat
  headIn   : Nat
deriving DecidableEq, Repr

structure Pcd where
  ch       : Vector Chan 16
  rail     : Vector Rail 4
  vbatsMv  : Nat
  muteHigh : Bool
  gm       : Lin
  pcdT     : List Int
  dieT     : List Int
  tFoldDie : Int
  tStopDie : Int
  /-- both as they stood at the last reading (R284) -/
  dieIn    : Int × Int
  /-- tick periods without a package-link frame that the stream watchdog allows (R14, R303) -/
  watch    : Nat
  /-- core cycles by which the carriers' periods start late against R239 after a long tick, and until they are re-phased (R303) -/
  skew     : Nat
  rephase  : Nat
  streamLost : Bool
  refClock : Bool
  supplyLow : Bool
  quiet    : Bool
deriving DecidableEq, Repr

/-! ### Ridge link -/

/-- An admission message, slots 76 to 91 (Table 14.12). -/
structure AdmitMsg where
  kind    : BitVec 4
  route   : BitVec 12
  segid   : BitVec 3
  pos     : BitVec 5
  valid   : Bool
  srcChan : BitVec 12
  srcPos  : BitVec 5
  srcSeg  : BitVec 3
  tap     : BitVec 7
  tapPos  : BitVec 5
  tapSeg  : BitVec 3
  bound   : Half
  lat     : Half
  elems   : List Word
  broken  : BitVec 4
deriving DecidableEq, Repr

/-- The receiver of a lane (R314): consecutive valid headers up to 64, the last 64 of them while it holds block lock, the lock, the
blocks since the place of the last marker, frame lock, and whether the last marker was missing. -/
structure LaneRx where
  run   : Nat
  seen  : List Bool
  block : Bool
  age   : Option Nat
  frame : Bool
  miss  : Bool
deriving DecidableEq, Repr

structure RPort where
  up      : Bool
  /-- the lanes of SPUR run as links of their own (R339); those of a ring port come up together -/
  lanes   : Vector Bool 2
  broken  : Bool
  losGpio : Option (Fin 16)
  los     : Bool
  prbs    : Option (Fin 2)
  prbsErr : Word
  loopback : Option (Fin 2)
  /-- the receivers of its lanes -/
  rx      : Vector LaneRx 2
  /-- of the last valid frame received: TDIST, number, PASSED; and the measured delay of the link in core cycles -/
  tdist   : Byte
  number  : Word
  passed  : Word
  delay   : Nat
  /-- the last HBSEQ, and the consecutive frames with none new and with the active member's beacon quiet, up to 8 (R333) -/
  hb      : Byte
  stale   : Nat
  quietRun : Nat
deriving DecidableEq, Repr

/-- What the two directions brought for a tap's frame: no copy that holds the owner's bit, a copy whose slot is invalid, or a
sample (R322, R323). -/
structure TapCopies where
  frame : Word
  east  : Option (Option Word)
  west  : Option (Option Word)
deriving DecidableEq, Repr

structure Tap where
  /-- link (0 ring, 1 and 2 SPUR lanes), channel, owner position, SEGID -/
  link    : Nat
  chan    : Nat
  owner   : Fin 32
  segid   : BitVec 3
  /-- the selected copy comes on WEST, that is eastbound -/
  west    : Bool
  val     : Word
  missing : Nat
  arrived : Nat
  fade    : Lin
  /-- frames received and not yet due (R25), oldest first -/
  queue   : List TapCopies
  /-- the admitted route this tap is the sink of -/
  route   : Option Nat
deriving DecidableEq, Repr

/-- The frame that the device last sent on a link: its control slots, and its audio channels (Table 12.3). -/
structure LinkTx where
  frame : Word
  orig  : Bool
  ctl   : List Word
  audio : List (Nat × Word)
deriving DecidableEq, Repr

/-- A schedule that the manager sends in slots 6 and 7. -/
structure SchedOut where
  f      : Word
  kind   : Nat
  id     : Nat
  target : Nat
  all    : Bool
  /-- the CGROUP that it commits, 0 none; bits 23:0 of W0 of the command that it carries (R157, R170) -/
  cgroup : Fin 16
  key    : Nat
deriving DecidableEq, Repr

structure Route where
  id     : Nat
  src    : Word
  sink   : Word
  bound  : Nat
  lat    : Nat
  elems  : List Word
  broken : Bool
deriving DecidableEq, Repr

structure Twin where
  a    : Nat
  b    : Nat
  pair : Vector (Option (Fin 16)) 16
deriving DecidableEq, Repr

/-- A member of a commit group on another device, as the manager knows it (R170). -/
structure CgMember where
  n     : Fin 16
  pos   : Fin 32
  grp   : GrpId
  /-- COMMIT is AUTO; the member is ready; bits 23:0 of W0 of the last command for it -/
  auto  : Bool
  ready : Bool
  key   : Nat
deriving DecidableEq, Repr

structure Member where
  pos    : Nat
  serial : Quad
  beacon : Word
  /-- what it has free, as the manager knows it (R338) -/
  free   : DevFree
deriving DecidableEq, Repr

/-- Whether the device originates the next frame of a direction (R320): not, until a frame comes back, as the active manager at formation or a
device at a mended break does, or once because a frame ended here. -/
inductive Origin where
  | no | held | due
deriving DecidableEq, Repr

/-- A bridge of an admitted route through this device's matrix: the route, the tap and the transmit column (R341). -/
structure RouteBridge where
  route : Nat
  tap   : Fin 128
  tx    : Fin 64
deriving DecidableEq, Repr

structure Link where
  ports     : Vector RPort 3
  pos       : Option (Fin 32)
  segid     : BitVec 3
  /-- the device forwards frames of its ring -/
  joined    : Bool
  left      : Bool
  active    : Bool
  standby   : Bool
  paired    : Bool
  originE   : Origin
  originW   : Origin
  timingWest : Bool
  tdist     : Byte
  mgrPos    : Nat
  stbyPos   : Nat
  epoch     : BitVec 4
  hbSeq     : Byte
  sync      : Bool
  refreshing : Bool
  mseq      : BitVec 12
  /-- the active member's full refresh: frames since REFRESH, and the number from which this frame's free words are drawn (R332) -/
  refreshAt : Nat
  mirrorNo  : Nat
  mirrored  : List Word
  tx        : Vector (Option (Nat × Nat)) 64
  grants    : List (Nat × Nat)
  /-- the grants listed are all that the segment has: not after a failover (R333, log 105) -/
  grantsAll : Bool
  taps      : Vector (Option Tap) 128
  members   : List Member
  /-- the beacons of the segments of a consist, and the SEGID that SPUR lane 0 has brought (R339) -/
  segs      : Vector Word 8
  spurSeg   : Option (BitVec 3)
  /-- the segments whose manager has passed the summit's test, by SEGID (R419) -/
  vetted    : BitVec 8
  twins     : List Twin
  /-- own channels that compensate for the twin (R335) -/
  comp      : BitVec 16
  routes    : List Route
  nextRoute : Nat
  bridges   : List RouteBridge
  tdnSeq    : Byte
  tunnelOut : List (Fin 32 × Msg)
  tunnelAck : Option (Byte × BitVec 2)
  /-- the manager's last frame addressed TDN to this device -/
  ackLive   : Bool
  /-- a tunnelled message has arrived; the outbound mailbox whose message TUP carries (R337) -/
  tunnelled : Bool
  tup       : Option BoxId
  tupSeq    : Byte
  /-- the acknowledgements that the manager writes into frames that leave on EAST and on WEST: position and TSEQ; the last message
  taken of each worker -/
  tupAck    : Vector (Option (Fin 32 × Byte)) 2
  tupSeen   : List (Fin 32 × Byte)
  /-- LINK_ADMIT commands of this device's host that wait for the summit's answer (R386) -/
  asks      : List Msg
  /-- the manager's own commands that have not been answered: position, bits 23:0 of W0 -/
  ownKeys   : List (Fin 32 × Nat)
  schedOut  : List SchedOut
  /-- schedules that were sent and whose frame is still to come -/
  schedSent : List SchedOut
  /-- the members of commit groups on other devices; modules on their way there, and the SEQ of the manager's own commands -/
  cg        : List CgMember
  jobs      : List Deploy
  jobSeq    : Byte
  nextSched : Nat
  errEast   : Word
  errWest   : Word
  errSpur0  : Word
  errSpur1  : Word
  consist   : Bool
  graph     : Option GraphPlan
  /-- eastbound, westbound, SPUR lanes 0 and 1 -/
  sent      : Vector LinkTx 4
  /-- the admission messages that wait, the first of which the device repeats until it is acknowledged, and the route it acknowledges in
  slot 91 -/
  admitOut  : List AdmitMsg
  admitAck  : Option (BitVec 12)
  /-- the admission message of the last frame of EAST, WEST and both SPUR lanes -/
  admitSeen : Vector (Option AdmitMsg) 4
deriving DecidableEq, Repr

/-! ### Peripheral port -/

/-- A queue entry (Table 16.2), with the message to answer when it came from PERI_XFER and whether its data came by a
handle. -/
structure PeriEntry where
  sel     : Fin 4
  width   : Nat
  cont    : Bool
  timeout : Nat
  data    : List Word
  reply   : Option Msg
  byHandle : Bool
deriving DecidableEq, Repr

/-- A run on a select: the words sent with their widths, then the number of words that were sent only to read (R425, R427). -/
structure PeriRun where
  sel   : Fin 4
  words : List (Nat × Word)
  reads : Nat
deriving DecidableEq, Repr

structure Peri where
  queue   : List PeriEntry
  /-- the entry paused on PRDY and the words received so far -/
  paused  : Option (PeriEntry × List Word)
  held    : Option (Fin 4)
  /-- the held run was left by a PERI_XFER -/
  hostRun : Bool
  broken  : Bool
  /-- the runs of the last entry, or of the firmware's last work on the flash -/
  sent    : List PeriRun
  /-- RESULT of the entry that ended last (Table 16.2) -/
  result  : List Word
deriving DecidableEq, Repr

/-! ### Boot -/

/-- The items that a sealed copy carries (R381, R417). -/
structure Sealed where
  xp      : List (Nat × Xp)
  cols    : Vector Col 256
  rows    : Vector RowDet 512
  rp      : Nat
  armed   : Bool
  gens    : Vector Gen 16
  ports   : Vector (PortCfg × Masks × Bool) 12
  chans   : Vector (ChCfg × Option (Rat × Rat) × Bool) 16
  rails   : Vector Rail 4
  dieT    : Int × Int
  outs    : Vector ClkOut 8
  asn     : Vector AsSyn 4
  refOrder : List RefSrc
  mrate   : MRate
  lock    : Vector Nat 2 × Vector Nat 2
  holdLim : Nat
  sync    : Bool
  zones   : Vector Zone 16
  /-- twin enable, RAISE, fault restart, maintenance interval, KAINT, keep-alive QUIET -/
  policy  : Bool × Nat × Bool × Nat × Nat × Bool
  cred    : Option (BitVec 384)
deriving DecidableEq, Repr

/-- A sealed configuration record (Table 15.12), its data in the clear. -/
structure SealedCopy where
  magic   : Word
  ksvn    : Byte
  rsv     : BitVec 24
  cseq    : Word
  len     : Word
  nonce   : Vector Word 3
  rsv2    : Word
  data    : Sealed
  tag     : BitVec 128
deriving DecidableEq, Repr

structure Boot where
  phase    : BootPhase
  straps   : Straps
  kh       : Vector (Option (BitVec 384)) 4
  revoke   : BitVec 4
  serial   : Quad
  bootOrder : BitVec 4
  debugDisable : Bool
  khLock   : Bool
  orderLock : Bool
  testLock : Bool
  debugLock : Bool
  fuseLock : Bool
  svn      : Option Byte
  /-- the deriver's clear bit; whether the firmware was given a key; the K_SVN that it read (R413) -/
  keyClear : Bool
  keyRead  : Bool
  key      : BitVec 384
  jtag     : Bool
  warm     : Option WarmRec
  /-- the first 64 bytes of each directory copy (Table 15.8) -/
  dir      : Vector (List Byte) 2
  /-- what the flash on PSEL0_N declares; none while it has not answered -/
  flash    : Option Sfdp
  slotA    : List Byte
  slotB    : List Byte
  sealed   : Vector (Option SealedCopy) 2
  /-- sources still to try, the one waited on first (R398) -/
  order    : List BootCode
  responded : Bool
  found    : Bool
  onlyRevoked : Bool
  trialFailed : Bool
  retFailed : Bool
  running  : Option BootSrc
  image    : ImgInfo
  imgBytes : List Byte
  /-- the core sections as placed in Capo-H SRAM, and Capo-S SRAM (R403, R421) -/
  sramH    : List Byte × List Byte
  sramS    : List Byte
  /-- where Capo-H was started last (R412) -/
  entry    : Word
  trial    : Bool
  trialWd  : Option Nat
  cred     : Option (BitVec 384)
  cfgRead  : Bool
  wakeMask : BitVec 2
  jtagIr   : Jtag
deriving DecidableEq, Repr

/-! ### The machine -/

structure State where
  clk  : Clk
  sup  : Sup
  boot : Boot
  host : HostPort
  fw   : Fw
  eng  : Vector Engine 20
  tile : Vector TileMem 4
  grp  : Vector Group 16
  mtx  : Mtx
  gen  : Vector Gen 16
  sad  : Vector Saddle 8
  port : Vector Port 12
  mic  : Vector Mic 16
  pcd  : Pcd
  link : Link
  peri : Peri
  /-- the model's own: feeds the free values of Config -/
  free : Nat
  pending : List Instr
deriving DecidableEq, Repr

/-- Why a step stops with a fault. -/
inductive Fault where
  /-- raised by a meaning whose operand no event of the hardware can carry (an ill-formed command, WellFormed.lean); safe,
  since the machine stops -/
  | illFormed (mnemonic : String)
deriving DecidableEq, Repr

/-- Why a step is refused. -/
inductive Refusal where
  /-- raised by a row of the table that has no meaning yet; safe, since the machine stops -/
  | notModelled (mnemonic : String)
deriving DecidableEq, Repr

/-! ### Reset values -/

def AsSyn.reset : AsSyn := { enabled := false, lock := false, core := true, nint := 120, nfrac := 0, p := 8 }

def ClkOut.reset : ClkOut :=
  { src := .off, d := 1, format := .lvcmos33, arm := false, started := false, running := false, age := 0, early := false, tail := 0 }

def Clk.reset : Clk :=
  { sysCnt := 0, sysHold := 0, tick := 0, frame := 0, cyc := 0, now := 0, tickRun := false, mrate := .m44,
    family := .f44, actSrc := none, qual := [], hold := false, holdAt := 0, holdIn := 100, limitHit := false,
    lostSrc := none, fallback := true, sysLock := false,
    lnkLock := false, asn := .replicate 4 .reset, band := .replicate 6 (.replicate 16 (false, 0)),
    bandIn := .replicate 6 8, bucketIn := .replicate 6 none, refOrder := [.refclk], lockWin := .replicate 2 2,
    lockN := .replicate 2 12, holdLim := 100, out := .replicate 8 .reset, syncByFrame := false, syncFrame := none, syncPend := none,
    lastE := 0, lastRealign := false, realign := .none, factor := 1, cntPend := 0 }

def Sup.reset : Sup :=
  { quiet := 1, stat := 1, capoHRun := false, capoSRun := false, pcdReleased := false, engRun := false,
    resetCause := 0, restarting := false }

def Mbi.reset : Mbi :=
  { w := .replicate 16 0, len := 0, go := false, badlen := false, aborted := false, busywr := false, placed := none }
def Mbo.reset : Mbo := { w := .replicate 16 0, len := 0, go := false, ackerr := false }

def HostPort.reset : HostPort :=
  { ready := false, badcmd := false, addrOvr := false, cfgerr := false, sysHi := 0, tickLat := 0, frameLat := 0,
    intsrc := 0, inten := 0, scratch := 0, resp := 0, hdo := { statusByte := 0, words := [] },
    mbi := .replicate 4 .reset, mbo := .replicate 4 .reset }

def Zone.reset : Zone :=
  { on := false, chans := 0, grp := 0, chan := 0, noiseOn := false, gmax := 120, nref := -600, slope := 50,
    fold := false, reads := [], gain := 0, stale := false, falling := false }

def Fw.reset : Fw :=
  { started := false, reading := false, q := .replicate 4 [], evSeq := 0, allOff := false, evExc := [], loss := 0, drop0 := 0,
    drop3 := 0, lostHeld := false, handle := .replicate 8 none, outHandle := 0, sleep := none, kaInt := 0,
    kaQuiet := false, kaLapsed := false, sched := [], made := [], heldTune := [], zone := .replicate 16 .reset, twinOn := true,
    raise := 6, clamped := 0, restartOn := true, migrHours := 24, migrNext := 0, bulkOut := [], mirrorWait := [], line := [] }

def Engine.reset : Engine :=
  { st := .idle, grp := none, prog := .empty, p := [], d := [], par0 := [], par1 := [], pEcc := .clean, dEcc := .clean,
    pHold := none, dHold := none, pCorr := 0, dCorr := 0, regs := .zero, flight := [], pc := 0, rpt := 0, issued := 0, stalls := 0,
    maxStall := 0, flags := 0, sticky := 0, stopped := false, tickLat := 0, bankLat := false, bank := false,
    out := .replicate 12 0, latch := .replicate 12 0, events := [], desc := .replicate 64 .zero, kept := [],
    req := none, bistLeft := 0, retired := false, faultDue := false, clearing := false, testDue := false,
    bist := none, bistBad := false, holds := false }

def TileMem.reset : TileMem :=
  { mem := [], ecc := .clean, wb := .replicate 16 none, corr := 0, owner := [], excluded := [] }

def Lin.at (v : Rat) : Lin := { v := v, goal := v, step := 0 }

def Group.reset : Group :=
  { owner := none, fade := none, xf := none, aud := none, restarts := [], waiting := none, givenUp := false,
    evLost := 0, copyTo := none, copying := false }

def RowDet.reset : RowDet := { theta := -70, holdMs := 500 }

def Mtx.reset : Mtx :=
  { xp := [], cols := .replicate 256 .reset, rows := .replicate 512 .reset, hist := [], selB := false, armed := false,
    rp := 96, prio := true, snap := [], col := .replicate 256 0, colPrev := .replicate 256 0, raw := .replicate 256 0, rawPrev := .replicate 256 0,
    pattern := 0, parity := [], fault := none, resumed := none }

def PortCfg.reset : PortCfg :=
  { mode := .tdm, slots := 2, width := 32, delay := 1, fall := false, fspolLow := false, binding := .m, clksrc := none,
    rxbase := 0, txbase := 0, txHiz := false, stopq := 64, block := 64, stampDiv := 0 }

/-- An AES port: WIDTH 24, BLOCK 192 (R204). -/
def PortCfg.resetAes : PortCfg := { PortCfg.reset with width := 24, block := 192 }


def AesCh.reset : AesCh :=
  { status := none, user := 0, validity := 0, txStatus := .replicate 24 0, txUser := .replicate 24 0, crcc := false,
    v := false, next := none, parErr := 0, crcErr := 0, vRun := 0, goodRun := 0, muted := false, fade := .at 1,
    sample := 0, cap := [], full := none }

def Port.reset (cfg : PortCfg) : Port :=
  { st := .off, cfg := cfg, masks := { in0 := 0, in1 := 0, out0 := 0, out1 := 0 }, shadow := none, outNow := (0, 0),
    fade := .at 0, txFade := .at 0, txTail := false, good := 0, toRun := false, done := 0, rxBuf := [], rxAt := [], txAt := 0, last := ([], []), txBuf := [], rxReady := false, txReady := false,
    txDone := 0, txData := [], tx0 := [], tx1 := [], txEnd := (some false, some false), txSubs := [], stopLeft := 0, rxSlip := 0, txSlip := 0, glitch := 0, lostCnt := 0, glitchRun := 0, overdue := 0,
    rxSlips := [], txSlips := [], margin := 0, rateErr := 0, blockNo := 0, blockPos := 0, blockOn := false, stamp := 0,
    txFrame := 0, loop := false, loopOff := false, loopErr := false, aes := .replicate 2 .reset }

def Mic.reset : Mic :=
  { on := false, hp := true, hold := none, stuck := false, fade := .at 0, sample := 0, bits := 0, combs := [], hpIn := 0, hpOut := 0,
    still := 0, alive := 0, hit := false }


def ChCfg.reset : ChCfg :=
  { vfs := 200, cmramp := 80, deadtime := 13, ilim := 50, tFold := 110, tStop := 125, foldMax := -12, lsup := false,
    lsdev := 25 }

def Bridge.off : Bridge :=
  { edge := (0, 0), err := [], noLow := 0, due := false, lowIn := 0, low := (0, 0), out := (0, 0), level := none, gates := [] }

def Chan.reset : Chan :=
  { st := .off, cfg := .reset, duty := 0, dutyStep := 0, toRun := false, stopWhy := none, hotSrc := 0, gch := .at 0, rateFall := false, gth := 0,
    folding := false, gdc := .at 1, ilimIn := 50, lsupIn := false, lsdevIn := 25, look := [], half := 0, mid := none, u1 := 0, u2 := 0,
    bridgeA := .off, bridgeB := .off, pipe := [], clipped := false, clip := 0, limited := [], limNow := none, tripNow := false,
    ilims := [], ilimNext := 0, trips := [], retrying := false, wasRun := false,
    diagOnly := false, cls := 0, diag := .zero, ntc := [], ntcBad := false, zNow := (0, 0), zSig := none, learn := [],
    learning := false, winBad := false, devRun := 0, okRun := 0, dcAcc := [], dcTicks := 0, dcUntil := 0, dcOpen := false, dcLp := 0,
    dcHigh := 0, dcLow := 0, pilotN := 0, fetIn := (110, 125) }

def Rail.reset : Rail :=
  { mode := .pass, vmax := 60, vidle := 0, headroom := 8, ratio := 3200, bilim := 100, ref := 0, bg := false, bgOn := 0, atLimit := false,
    idle := false, latched := false, code := 0, overRun := 0, underRun := 0, fbRun := 0, upRun := 0, ovlRun := 0, highHold := false, highNext := 0,
    shortNext := 0, ovlNext := 0, bp := 0, vmaxIn := 60, vidleIn := 0, headIn := 8 }

def Pcd.reset : Pcd :=
  { ch := .replicate 16 .reset, rail := .replicate 4 .reset, vbatsMv := 0, muteHigh := true, gm := .at 1, pcdT := [],
    dieT := [], tFoldDie := 135, tStopDie := 145, dieIn := (135, 145), watch := 2, skew := 0,
    rephase := 0, streamLost := false, refClock := false, supplyLow := false,
    quiet := true }

def LaneRx.reset : LaneRx := { run := 0, seen := [], block := false, age := none, frame := false, miss := false }

def RPort.reset : RPort :=
  { up := false, lanes := .replicate 2 false, broken := false, losGpio := none, los := false, prbs := none, prbsErr := 0,
    loopback := none, rx := .replicate 2 .reset, tdist := 255, number := 0, passed := 0, delay := 0, hb := 0, stale := 0, quietRun := 0 }

def LinkTx.none : LinkTx := { frame := 0, orig := false, ctl := [], audio := [] }

def Link.reset : Link :=
  { ports := .replicate 3 .reset, pos := none, segid := 0, joined := false, left := false, active := false,
    standby := false, paired := false, originE := .no, originW := .no, timingWest := true, tdist := 255,
    mgrPos := 0, stbyPos := 0, epoch := 0, hbSeq := 0,
    sync := false, refreshing := false, mseq := 0, refreshAt := 0, mirrorNo := 0, mirrored := [], tx := .replicate 64 none, grants := [],
    grantsAll := true, taps := .replicate 128 none, members := [], segs := .replicate 8 0, spurSeg := none, vetted := 0, twins := [], comp := 0, routes := [], nextRoute := 0, bridges := [], tdnSeq := 0,
    tunnelOut := [], tunnelAck := none, ackLive := false, tunnelled := false, tup := none, tupSeq := 0, tupAck := .replicate 2 none, tupSeen := [], asks := [], ownKeys := [], schedOut := [], schedSent := [], cg := [], jobs := [], jobSeq := 0, nextSched := 0,
    errEast := 0, errWest := 0, errSpur0 := 0, errSpur1 := 0, consist := false, graph := none,
    sent := .replicate 4 .none, admitOut := [], admitAck := none, admitSeen := .replicate 4 none }

def Peri.reset : Peri :=
  { queue := [], paused := none, held := none, hostRun := false, broken := false, sent := [], result := [] }

def ImgInfo.none : ImgInfo := { svn := 0, seq := 0, release := 0, autoconf := false, trialWd := 0 }

def Boot.reset : Boot :=
  { phase := .held, straps := .reset, kh := .replicate 4 none, revoke := 0, serial := Config.serial, bootOrder := 0,
    debugDisable := false, khLock := false, orderLock := false, testLock := false, debugLock := false,
    fuseLock := false, svn := none, keyClear := false, keyRead := false, key := 0, jtag := false, warm := none,
    dir := .replicate 2 [], flash := none, slotA := [], slotB := [], sealed := .replicate 2 none, order := [], responded := false,
    found := false, onlyRevoked := false, trialFailed := false, retFailed := false, running := none, image := .none,
    imgBytes := [], sramH := ([], []), sramS := [], entry := 0, trial := false, trialWd := none, cred := none, cfgRead := false, wakeMask := 0, jtagIr := .bypass }

/-- The device right after RESET_N with a fresh flash (INVENTORY.md, ## State). -/
def State.reset : State :=
  { clk := .reset, sup := .reset, boot := .reset, host := .reset, fw := .reset, eng := .replicate 20 .reset,
    tile := .replicate 4 .reset, grp := .replicate 16 .reset, mtx := .reset, gen := .replicate 16 .stopped,
    sad := .replicate 8 .unbound,
    port := Vector.replicate 8 (Port.reset .reset) ++ Vector.replicate 4 (Port.reset .resetAes),
    mic := .replicate 16 .reset, pcd := .reset, link := .reset, peri := .reset, free := 0, pending := [] }

end Sys2Proof.Machine
end

