-- ==== Sys2Proof/Machine/Ops.lean ====
section
/-! DEFINITION. The named operations that every family shares: vectors and memories, rounding, outgoing messages and events,
counters, and the place where a meaning ends. -/
namespace Sys2Proof.Machine
open Sys2Proof

/-! ### Vectors -/

/-- Replace entry i by its image. -/
def vmod (v : Vector α n) (i : Fin n) (f : α → α) : Vector α n := v.set i.val (f v[i]) i.isLt

/-- The image of every entry; by lists, so that the kernel can evaluate it. -/
def vmap (f : α → β) (v : Vector α n) : Vector β n := ⟨⟨v.toList.map f⟩, by simp⟩

/-- The vector of the values of a function. -/
def vof (f : Fin n → α) : Vector α n := ⟨⟨List.ofFn f⟩, by simp⟩

/-- The first n entries of a list, missing ones filled with d. -/
def vpad (n : Nat) (d : α) (l : List α) : Vector α n := ⟨⟨(l ++ List.replicate n d).take n⟩, by simp⟩

/-- Every index below n, rising. -/
def idx (n : Nat) : List (Fin n) := List.ofFn id

/-- Apply f for every index, rising. -/
def forIdx (n : Nat) (f : Fin n → σ → σ) (s : σ) : σ := (idx n).foldl (fun s i => f i s) s

/-! ### Memories -/

/-- The word at an address; an unlisted address reads as zero (log 11). -/
def Mem.get (m : Mem w) (a : Nat) : BitVec w :=
  match m with
  | [] => 0
  | (b, v) :: r => if a = b then v else Mem.get r a

/-- Write a word, keeping the canonical form. -/
def Mem.set (m : Mem w) (a : Nat) (x : BitVec w) : Mem w :=
  match m with
  | [] => if x = 0 then [] else [(a, x)]
  | (b, v) :: r =>
    if a < b then (if x = 0 then (b, v) :: r else (a, x) :: (b, v) :: r)
    else if a = b then (if x = 0 then r else (a, x) :: r)
    else (b, v) :: Mem.set r a x

/-- Every listed address is at least lo, addresses rise, and no listed word is zero. -/
def Mem.wfFrom (lo : Nat) : Mem w → Bool
  | [] => true
  | (a, v) :: r => decide (lo ≤ a) && decide (v ≠ 0) && Mem.wfFrom (a + 1) r

/-- The canonical form. -/
def Mem.wf (m : Mem w) : Bool := Mem.wfFrom 0 m

/-- Write a list of words at consecutive addresses. -/
def Mem.setMany (m : Mem w) (a : Nat) : List (BitVec w) → Mem w
  | [] => m
  | x :: xs => Mem.setMany (m.set a x) (a + 1) xs

/-- Read n words from consecutive addresses. -/
def Mem.getMany (m : Mem w) (a : Nat) : Nat → List (BitVec w)
  | 0 => []
  | n + 1 => m.get a :: Mem.getMany m (a + 1) n

/-- Keep the words whose address satisfies p. -/
def Mem.keep (m : Mem w) (p : Nat → Bool) : Mem w := m.filter fun c => p c.1

/-- Zero the n words from a. -/
def Mem.clear (m : Mem w) (a n : Nat) : Mem w := m.keep fun b => b < a || a + n ≤ b

/-! ### Numbers -/

/-- floor(x + 1/2), the rounding of R482. -/
def roundHalfUp (x : Rat) : Int := (x + 1/2).floor

/-- Saturate to the range of a signed 32-bit value. -/
def sat32 (x : Int) : Int := max (-2147483648) (min 2147483647 x)

/-- v × num/den, rounded half up and saturated (R482). -/
def scale32 (v : Word) (num den : Nat) : Word := BitVec.ofInt 32 (sat32 ((2 * v.toInt * num + den) / (2 * den)))

/-- v × f, rounded half up and saturated (R482). -/
def scaleQ (v : Word) (f : Rat) : Word := if f = 1 then v else BitVec.ofInt 32 (sat32 (roundHalfUp ((v.toInt : Rat) * f)))

/-- A level, count or code as a message word: two's complement. -/
def wordI (x : Int) : Word := BitVec.ofInt 32 x
def wordN (x : Nat) : Word := BitVec.ofNat 32 x

/-- The greatest n with n × n ≤ x, by bits from 2^k down. -/
def isqrtFrom (x : Nat) : Nat → Nat → Nat
  | 0, r => r
  | k + 1, r => isqrtFrom x k (if (r + 2 ^ k) * (r + 2 ^ k) ≤ x then r + 2 ^ k else r)

/-- The integer square root, for numbers below 2^256. -/
def isqrt (x : Nat) : Nat := isqrtFrom x 128 0

/-- The bits lo to lo+n−1 of a word, as a number. -/
def fld (w : BitVec k) (lo n : Nat) : Nat := (w.toNat >>> lo) % 2 ^ n

/-- Bit i of a word. -/
def bit (w : BitVec k) (i : Nat) : Bool := w.getLsbD i

/-- A Fin from a number that the caller has checked; others wrap. -/
def fin (n : Nat) [NeZero n] (x : Nat) : Fin n := Fin.ofNat n x

/-- The bits of a mask that are set, rising. -/
def bitsOf (n : Nat) (w : BitVec k) : List (Fin n) := (idx n).filter fun i => w.getLsbD i.val

/-- The mask of a list of indices. -/
def maskOf (l : List (Fin n)) : Word := l.foldl (fun m i => m ||| BitVec.ofNat 32 (2 ^ i.val)) 0

def boolN (b : Bool) : Nat := if b then 1 else 0

/-! ### Rates -/

/-- Samples a second at a rate of M. -/
def MRate.hz : MRate → Nat
  | .m44 => 44100 | .m48 => 48000 | .m88 => 88200 | .m96 => 96000

/-- Core cycles per tick (Table 01.2). -/
def MRate.cycles : MRate → Nat
  | .m44 | .m48 => 16384 | .m88 | .m96 => 8192

def MRate.family : MRate → Family
  | .m44 | .m88 => .f44 | .m48 | .m96 => .f48

/-- The code of setting 0x21 and of CLKSTAT.MRATE. -/
def MRate.code : MRate → Nat
  | .m44 => 0 | .m48 => 1 | .m88 => 2 | .m96 => 3

def MRate.ofCode : Nat → MRate
  | 0 => .m44 | 1 => .m48 | 2 => .m88 | _ => .m96

/-- The base rate of a family. -/
def baseRate : Family → MRate
  | .f44 => .m44 | .f48 => .m48

/-- Units of clk.now in a core cycle: the same part of a second in both families. -/
def timeUnit : Family → Nat
  | .f44 => 160 | .f48 => 147

/-- Units of clk.now in a second. -/
def second : Nat := 16384 * 44100 * 160

/-- Some time lies less than so many seconds back. -/
def State.lately (s : State) (sec t : Nat) : Bool := decide (s.clk.now < t + sec * second)

/-- The ticks of a time in ms, rounded up. -/
def State.msTicks (s : State) (ms : Nat) : Nat := (ms * s.clk.mrate.hz + 999) / 1000

/-! ### Parts of the state -/

def State.modEng (s : State) (e : EngId) (f : Engine → Engine) : State := { s with eng := vmod s.eng e f }
def State.modGrp (s : State) (g : GrpId) (f : Group → Group) : State := { s with grp := vmod s.grp g f }
def State.modTile (s : State) (t : TileId) (f : TileMem → TileMem) : State := { s with tile := vmod s.tile t f }
def State.modGen (s : State) (i : GenId) (f : Gen → Gen) : State := { s with gen := vmod s.gen i f }
def State.modSad (s : State) (x : SadId) (f : Saddle → Saddle) : State := { s with sad := vmod s.sad x f }
def State.modPort (s : State) (p : PortId) (f : Port → Port) : State := { s with port := vmod s.port p f }
def State.modMic (s : State) (m : MicId) (f : Mic → Mic) : State := { s with mic := vmod s.mic m f }
def State.modCh (s : State) (c : ChanId) (f : Chan → Chan) : State := { s with pcd.ch := vmod s.pcd.ch c f }
def State.modRail (s : State) (r : RailId) (f : Rail → Rail) : State := { s with pcd.rail := vmod s.pcd.rail r f }
def State.modCol (s : State) (c : Fin 256) (f : Col → Col) : State := { s with mtx.cols := vmod s.mtx.cols c f }
def State.modRPort (s : State) (p : RidgeId) (f : RPort → RPort) : State :=
  { s with link.ports := vmod s.link.ports p f }
def State.modMbi (s : State) (b : BoxId) (f : Mbi → Mbi) : State := { s with host.mbi := vmod s.host.mbi b f }
def State.modMbo (s : State) (b : BoxId) (f : Mbo → Mbo) : State := { s with host.mbo := vmod s.host.mbo b f }
def State.modQ (s : State) (b : BoxId) (f : List Msg → List Msg) : State := { s with fw.q := vmod s.fw.q b f }
def State.modZone (s : State) (z : ZoneId) (f : Zone → Zone) : State := { s with fw.zone := vmod s.fw.zone z f }
def State.modOut (s : State) (n : Fin 8) (f : ClkOut → ClkOut) : State := { s with clk.out := vmod s.clk.out n f }
def State.modAs (s : State) (n : Fin 4) (f : AsSyn → AsSyn) : State := { s with clk.asn := vmod s.clk.asn n f }

/-- A fresh number for a free value of Config (log 2). -/
def State.fresh (s : State) : Nat × State := (s.free, { s with free := s.free + 1 })

/-- The first of k fresh numbers. -/
def State.freshMany (k : Nat) (s : State) : Nat × State := (s.free, { s with free := s.free + k })

/-- The device is strapped standalone: it keeps no link frame number and no ridge link (R26, R305). -/
def State.standalone (s : State) : Bool := s.boot.straps.role = 3

/-- The device has ring and SPUR as a manager or a manager-pair member (Table 01.4). -/
def State.managerRole (s : State) : Bool := s.boot.straps.role = 1 || s.boot.straps.role = 2

/-- The tile of an engine. -/
def tileOf (e : EngId) : TileId := ⟨e.val / 5, by omega⟩

/-- The rail group of a channel (R238). -/
def railOf (c : ChanId) : RailId := ⟨c.val / 4, by omega⟩

/-! ### Messages and events -/

/-- Sixteen message words from a list. -/
def words16 (l : List Word) : Vector Word 16 := vpad 16 0 l

/-- A message of at least 8 words (R374, R387). -/
def mkMsg (b : BoxId) (ws : List Word) : Msg :=
  { box := b, len := BitVec.ofNat 5 (max 8 (min 16 ws.length)), w := words16 ws }

/-- Word i of a message. -/
def mword (m : Msg) (i : Nat) : Word := if h : i < 16 then m.w[i] else 0

/-- Every word of a message up to W(LEN−1). -/
def mwords (m : Msg) : List Word := m.w.toList.take m.len.toNat

/-- A response: the request's header with DIR set, STATUS and INFO, then the results (R374). -/
def answer (m : Msg) (status info : Nat) (ws : List Word) : Msg :=
  mkMsg m.box ((m.w[0] ||| 0x1000000) :: BitVec.ofNat 32 (status + info <<< 16) :: ws)

/-- A command changes state that the mirror carries (R332). -/
def mirroredCmd (m : Msg) : Bool :=
  let c := fld m.w[0] 0 16
  decide (c ∈ [0x0401, 0x0402, 0x0501, 0x0502, 0x0503, 0x0504, 0x0505, 0x0802, 0x0803, 0x0804, 0x0805, 0x0806, 0x0807, 0x0808,
    0x0901, 0x0902])

/-- Bits 23:0 of W0 of a command, by which its response is known. -/
def keyOf (m : Msg) : Nat := fld m.w[0] 0 24

/-- The responses of MBO0 that wait for none any more are queued (R365). -/
def flushLine (s : State) : State :=
  let l := s.fw.line.takeWhile fun x => x.msg.isSome
  { s with fw.line := s.fw.line.drop l.length }.modQ 0 (· ++ l.filterMap Turn.msg)

/-- A response takes its place: that of its command where one is kept, else behind every other (R365). -/
def queueReply (pos : Option (Fin 32)) (m : Msg) (s : State) : State :=
  let here (x : Turn) : Bool := x.key = keyOf m && x.pos = pos && x.msg.isNone
  if m.box ≠ 0 then s.modQ m.box (· ++ [m])
  else if s.fw.line.any here then
    flushLine { s with fw.line := s.fw.line.modify (s.fw.line.findIdx here) fun (x : Turn) => { x with msg := some m } }
  else if s.fw.line = [] then s.modQ 0 (· ++ [m])
  else { s with fw.line := s.fw.line ++ [{ key := keyOf m, pos := pos, msg := some m }] }

/-- The place of a response that comes later (R365). -/
def await (pos : List (Option (Fin 32))) (m : Msg) (s : State) : State :=
  { s with fw.line := s.fw.line ++ pos.map fun p => { key := keyOf m, pos := p, msg := none } }

/-- A command of this device's own whose response comes later. -/
def awaitOwn (m : Msg) (s : State) : State := if m.box = 0 then await [none] m s else s

/-- Messages that wait in an outbound queue, those that wait for their turn among them (R370). -/
def State.queued (s : State) (b : BoxId) : Nat :=
  s.fw.q[b].length + if b = 0 then (s.fw.line.filter fun x => x.msg.isSome).length else 0

/-- Queue a response; on the active member of a pair, one that mirrored state rests on waits for the standby (R332). -/
def respond (m : Msg) (status info : Nat) (ws : List Word) (s : State) : State :=
  if s.link.active && s.link.paired && s.link.sync && mirroredCmd m && decide (status < 0x10) then
    { awaitOwn m s with fw.mirrorWait := s.fw.mirrorWait ++ [(s.link.mseq + 1, answer m status info ws)] }
  else queueReply none (answer m status info ws) s

/-- One more, saturating (R305). -/
def satInc (c : Word) : Word := if c = BitVec.allOnes 32 then c else c + 1

def satAdd (c : Word) (n : Nat) : Word := BitVec.ofNat 32 (min 4294967295 (c.toNat + n))

/-- An event as it is queued; its SEQ is set when it is sent (R373, R387). -/
def mkEvent (s : State) (code : Nat) (pl : List Word) : Msg :=
  mkMsg 2 ([BitVec.ofNat 32 (code + 2 ^ 24), s.clk.tick, s.clk.sysCnt.truncate 32, (s.clk.sysCnt >>> 32).truncate 32] ++ pl)

/-- EVT_ENABLE never disables these (R387). -/
def evAlways (code : Nat) : Bool := code = 0x8101 || code = 0x8102 || code = 0x8D01 || code = 0x8108

/-- The event is enabled (R387). -/
def State.evOn (s : State) (code : Nat) : Bool := evAlways code || (s.fw.allOff == s.fw.evExc.contains code)

/-- Places an event may take in the queue of MBO2: one is held for EVT_LOST while events have been lost (R370). -/
def State.evRoom (s : State) : Bool := s.fw.q[2].length + (if s.fw.lostHeld then 1 else 0) < 32

/-- Queue an event, or count it as lost (R370). -/
def queueEvent (m : Msg) (s : State) : State :=
  if s.evRoom then s.modQ 2 (· ++ [m]) else { s with fw.loss := satInc s.fw.loss, fw.lostHeld := true }

/-- Raise an event that is enabled (R387). -/
def raise (code : Nat) (pl : List Word) (s : State) : State := if s.evOn code then queueEvent (mkEvent s code pl) s else s

/-- A counter identifier (Table 14.14). -/
def cntId (cls index sub : Nat) : Word := BitVec.ofNat 32 (cls + 256 * index + 65536 * sub)

/-- CNT_SAT, once, when a counter has just reached its maximum (R309). -/
def cntSat (id old new : Word) (s : State) : State :=
  if new = BitVec.allOnes 32 ∧ old ≠ BitVec.allOnes 32 then raise 0x810A [id] s else s

/-- Set bits of INTSRC (R476); a set wins over a clear of the same cycle (R477). -/
def intset (i : Nat) (s : State) : State := { s with host.intsrc := s.host.intsrc ||| BitVec.ofNat 6 (2 ^ i) }

/-! ### Where a meaning ends -/

/-- The outcome of a meaning. -/
abbrev Out := Host.Outcome State Fault Refusal

/-- The outcome of a command whose operand no event of the hardware can carry. -/
def ifWf (ok : Bool) (mnemonic : String) (o : Out) : Out := if ok then o else .fault (.illFormed mnemonic)

end Sys2Proof.Machine
end

