-- ==== Sys2Proof/Machine/Flags.lean ====
section
/-! DEFINITION. Every flag and status word that is computed from the state: STAT, FAULT_N, HSTATUS, DEVSTAT, CLKSTAT, HIRQ_N
and the engine flag word. -/
namespace Sys2Proof.Machine
open Sys2Proof

/-! ### STAT and FAULT_N (R441, R442) -/

/-- A state of Table 10.1. -/
def ChState.protection : ChState → Bool
  | .off | .rampUp | .run | .rampDown => false
  | .diag | .diagFail | .tripped | .locked | .hot | .railWait | .railLatch => true

/-- Quiet is OFF or a state of Table 10.1 (R261). -/
def ChState.isQuiet (c : ChState) : Bool := c = .off || c.protection

/-- The gates switch: RUN or a ramp. -/
def ChState.switching (c : ChState) : Bool := !c.isQuiet

/-- The code of R261. -/
def ChState.code : ChState → Nat
  | .off => 0 | .rampUp => 1 | .run => 2 | .rampDown => 3 | .diag => 4 | .diagFail => 5 | .tripped => 6 | .locked => 7
  | .hot => 8 | .railWait => 9 | .railLatch => 10

/-- The device is in its quiet state (R440). -/
def State.isQuiet (s : State) : Bool := s.sup.quiet ≠ 0

/-- FAULT_N is driven low (R441). -/
def State.faultLow (s : State) : Bool :=
  s.isQuiet || match s.boot.phase with
    | .halted _ | .vendorTest | .boundaryScan => true
    | _ => false

/-- Priority 6 of Table 17.5. -/
def State.linkTrouble (s : State) : Bool :=
  s.clk.hold || s.link.ports.toList.any (·.broken) || s.link.left || s.link.routes.any (·.broken)

/-- The code of Table 17.5. -/
def State.runCode (s : State) : BitVec 4 :=
  if s.isQuiet then 0xC
  else if s.sup.restarting || s.fw.reading then 0xD
  else if s.pcd.ch.toList.any (·.st.protection) then 0x2
  else if s.grp.toList.any (·.givenUp) || s.eng.toList.any (·.retired) then 0x4
  else if s.port.toList.any (·.st = .lost) then 0x5
  else if s.linkTrouble then 0x6
  else if s.clk.actSrc ≠ s.clk.refOrder.head? then 0x7
  else if s.pcd.ch.toList.any (·.folding) then 0x3
  else 0

/-- The code that STAT[3:0] shows: that of Table 15.10 until the firmware has finished its start, then that of Table 17.5, also
while Capo-H restarts (R442). -/
def State.statCode (s : State) : BitVec 4 :=
  match s.boot.phase with
  | .held | .rom | .verified => 1
  | .halted c => c
  | .vendorTest => 0xF
  | .boundaryScan => 0xE
  | .firmware => if s.fw.started then s.runCode else 1
  | .sleeping => s.sup.stat

/-- STAT takes its code; a change of level sets INTSRC.STATCHG (R476). -/
def refresh (s : State) : State :=
  if s.statCode = s.sup.stat then s else intset 0 { s with sup.stat := s.statCode }

/-- The end of a meaning: STAT follows the state. -/
def done (s : State) : Out := .next (refresh s)

/-! ### Host status words -/

def State.ogo (s : State) : Bool := s.host.mbo.toList.any (·.go)
def State.abortAny (s : State) : Bool := s.host.mbi.toList.any (·.aborted)

/-- HIRQ_N is driven low (R367). -/
def State.hirq (s : State) : Bool :=
  s.host.ready && (s.ogo || s.abortAny || s.host.intsrc &&& s.host.inten ≠ 0)

/-- HSTATUS (Table 13.4). -/
def State.hstatus (s : State) : Word :=
  wordN (boolN s.host.badcmd <<< 3 + boolN s.host.addrOvr <<< 4 + boolN s.ogo <<< 5 + boolN s.hirq <<< 6
    + boolN s.host.ready <<< 7 + boolN s.host.cfgerr <<< 8 + boolN s.abortAny <<< 9
    + boolN s.boot.straps.hchain <<< 10)

/-- DEVSTAT (Table 19.3). -/
def State.devstat (s : State) : Word :=
  wordN (s.sup.stat.toNat + boolN s.faultLow <<< 4 + s.sup.quiet.toNat <<< 8)

/-- The code of a reference source; 0 is none (Tables 14.4 and 19.6). -/
def srcCode : Option RefSrc → Nat
  | none => 0 | some .refclk => 1 | some .ridge => 2 | some .sap0 => 3 | some .aes0 => 4 | some .spur => 5

/-- The mask of a vector of flags. -/
def maskOfBools : List Bool → Nat
  | [] => 0
  | b :: r => boolN b + 2 * maskOfBools r

/-- CLKSTAT (Table 19.6). -/
def State.clkstat (s : State) : Word :=
  wordN (srcCode s.clk.actSrc + boolN s.clk.hold <<< 3 + boolN s.clk.sysLock <<< 4 + boolN s.clk.lnkLock <<< 5
    + boolN s.clk.fallback <<< 6 + boolN s.clk.tickRun <<< 7
    + maskOfBools (s.clk.asn.toList.map (·.lock)) <<< 8 + s.clk.mrate.code <<< 12
    + maskOfBools (s.clk.out.toList.map (·.running)) <<< 24)

/-- The straps as STRAPS and SYS_INFO lay them out (Table 19.2). -/
def strapBits (p : Straps) : Nat :=
  p.role.toNat + boolN p.pairId <<< 2 + boolN p.hchain <<< 3 + p.bootsel.toNat <<< 4

/-- The order code in force (R397). -/
def State.orderCode (s : State) : Nat :=
  if bit s.boot.bootOrder 3 then fld s.boot.bootOrder 0 3 else s.boot.straps.bootsel.toNat

/-- STRAPS (Table 19.2). -/
def State.strapsReg (s : State) : Word :=
  wordN (strapBits s.boot.straps + boolN (bit s.boot.bootOrder 3) <<< 7 + s.orderCode <<< 8)

/-- Set a sticky error flag of the host port; the change from 0 to 1 sets INTSRC.HOSTERR (R476). -/
def hostErr (old : Bool) (s : State) : State := if old then s else intset 2 s

def setBadcmd (s : State) : State := hostErr s.host.badcmd { s with host.badcmd := true }
def setAddrOvr (s : State) : State := hostErr s.host.addrOvr { s with host.addrOvr := true }
def setCfgerr (s : State) : State := hostErr s.host.cfgerr { s with host.cfgerr := true }

/-! ### The engine flag word (R66, Table 02.6) -/

def flIllegal : Nat := 0
def flLength : Nat := 1
def flStack : Nat := 2
def flNestedRpt : Nat := 3
def flDlyRange : Nat := 4
def flEccUncorr : Nat := 5
def flMisalign : Nat := 12
def flCollide : Nat := 13

/-- Set a bit of the per-tick flag word. -/
def Engine.flag (e : Engine) (i : Nat) : Engine := { e with flags := e.flags ||| BitVec.ofNat 16 (2 ^ i) }

def Engine.flagIf (e : Engine) (b : Bool) (i : Nat) : Engine := if b then e.flag i else e

/-- Lane l's accumulator wrapped (bit 8 + l). -/
def Engine.flagOv (e : Engine) (lane : Nat) : Engine := e.flag (8 + lane)

/-- LENGTH with its cause (1 early, 2 missing, 3 late); the first cause of the tick is recorded. -/
def Engine.flagLength (e : Engine) (cause : Nat) : Engine :=
  if bit e.flags flLength then e
  else { e with flags := e.flags ||| BitVec.ofNat 16 (2 ^ flLength + cause <<< 6) }

/-- A fault bit is set (bits 5:0). -/
def Engine.hasFault (e : Engine) : Bool := e.flags &&& 0x3F ≠ 0

/-! ### CRC-32 (IEEE 802.3) -/

/-- One bit of the reflected polynomial. -/
def crcBit (c : Word) : Word := if bit c 0 then (c >>> 1) ^^^ 0xEDB88320 else c >>> 1

def crcByte (c : Word) (b : Byte) : Word :=
  let c := c ^^^ b.zeroExtend 32
  crcBit (crcBit (crcBit (crcBit (crcBit (crcBit (crcBit (crcBit c)))))))

def crc32 (l : List Byte) : Word := ~~~ l.foldl crcByte 0xFFFFFFFF

/-- The bytes of message words, little-endian. -/
def wordBytes (l : List Word) : List Byte :=
  l.flatMap fun (w : Word) => [w.truncate 8, (w >>> 8).truncate 8, (w >>> 16).truncate 8, (w >>> 24).truncate 8]

end Sys2Proof.Machine
end

