-- ==== Sys2Proof/Machine/Frame.lean ====
section
/-! DEFINITION. The line code of the ridge link and the frame that a lane's blocks carry: sync headers and lock, scrambler, slots,
and the fields of the control slots (12 R314 to R319, R336, R337; 14 R386). -/
namespace Sys2Proof.Machine
open Sys2Proof

/-! ### Sync headers (R314, R315) -/

/-- A valid sync header. -/
def validHead (h : BitVec 2) : Bool := h = 1 || h = 2

/-- Block lock after one more header: 64 valid in a row reach it, 16 invalid among 64 lose it. -/
def LaneRx.heard (h : BitVec 2) (x : LaneRx) : LaneRx :=
  let v := validHead h
  let seen := (v :: x.seen).take 64
  let run := if v then min 64 (x.run + 1) else 0
  if x.block then
    if 16 ≤ (seen.filter fun b => !b).length then .reset else { x with seen := seen, run := run }
  else { x with run := run, block := decide (64 ≤ run), seen := if run = 64 then .replicate 64 true else [] }

/-- Frame lock after a header, with n blocks in a frame: markers n blocks apart in two frames reach it, two frames without one in its
place lose it. -/
def LaneRx.marked (n : Nat) (h : BitVec 2) (x : LaneRx) : LaneRx :=
  let a := x.age.map (· + 1)
  let here := a = some n
  if !x.block then x
  else if x.frame then
    if !here then { x with age := a }
    else if h = 2 then { x with age := some 0, miss := false }
    else if x.miss then { x with frame := false, age := none, miss := false }
    else { x with age := some 0, miss := true }
  else if h = 2 then { x with frame := decide here, age := some 0, miss := false }
  else { x with age := if here then none else a }

/-- A lane hears sync headers. -/
def LaneRx.feed (n : Nat) (l : List (BitVec 2)) (x : LaneRx) : LaneRx := l.foldl (fun x h => (x.heard h).marked n h) x

/-- Both lanes hold frame lock, with their markers within 4 blocks of each other. -/
def RPort.aligned (n : Nat) (p : RPort) : Bool :=
  match (p.rx[0]).frame, (p.rx[1]).frame, (p.rx[0]).age, (p.rx[1]).age with
  | true, true, some a, some b => let d := (a + n - b) % n; decide (d ≤ 4 ∨ n ≤ d + 4)
  | _, _, _, _ => false

/-- 66-bit blocks of a frame on one lane (Table 12.1). -/
def State.frameBlocks (s : State) : Nat := if s.clk.mrate.cycles = 8192 then 512 else 1024

/-! ### The scrambler x^58 + x^39 + 1 (R314) -/

/-- A payload from the scrambled one and the scrambled one before it. -/
def unscramble (prev w : Quad) : Quad := w ^^^ (w <<< 39 ^^^ prev >>> 25) ^^^ (w <<< 58 ^^^ prev >>> 6)

/-- The scrambled payload. -/
def scramble (prev d : Quad) : Quad :=
  let t := d ^^^ prev >>> 25 ^^^ prev >>> 6
  t ^^^ t <<< 39 ^^^ t <<< 58

/-- The payloads of received blocks, each with whether its header was valid. -/
def payloads (prev : Quad) : List (BitVec 2 × Quad) → List (Bool × Quad)
  | [] => []
  | (h, w) :: l => (validHead h, unscramble prev w) :: payloads w l

/-- Blocks on the line for payloads: block 0 has the marker. -/
def lineBlocks (first : Bool) (prev : Quad) : List Quad → List (BitVec 2 × Quad)
  | [] => []
  | d :: l => (if first then 2 else 1, scramble prev d) :: lineBlocks false (scramble prev d) l

/-! ### Slots (R315 to R317) -/

/-- The two slots of a payload, the lower in bits 31:0. -/
def slotPair (x : Bool × Quad) : List (Bool × Word) := [(x.1, x.2.truncate 32), (x.1, (x.2 >>> 32).truncate 32)]

/-- The slots of a frame in order, each with its validity: block b of lane l carries slots 4b + 2l and 4b + 2l + 1; the one lane of a
SPUR link carries slots 2b and 2b + 1 in block b. -/
def RxLink.slots (f : RxLink) : List (Bool × Word) :=
  let a := payloads f.prev[0] f.blocks[0]
  if f.port = 2 then a.flatMap slotPair
  else (a.zip (payloads f.prev[1] f.blocks[1])).flatMap fun x => slotPair x.1 ++ slotPair x.2

/-- A received frame: port, SPUR lane, delay of the link, the control slots as they came, whether all of them were valid, and the
channels whose slots were valid, and the test of a join. -/
structure LinkFrame where
  port  : RidgeId
  lane  : Fin 2
  delay : Nat
  ctl   : List Word
  whole : Bool
  audio : List (Nat × Word)
  joins : Option JoinTest
deriving DecidableEq, Repr

def RxLink.frame (f : RxLink) : LinkFrame :=
  let l := RxLink.slots f
  let c := l.take 128
  { port := f.port, lane := f.lane, delay := f.delay, ctl := c.map (·.2), whole := decide (c.length = 128) && c.all (·.1),
    audio := ((List.range l.length).zip l).filterMap fun x => if 128 ≤ x.1 ∧ x.2.1 then some (x.1 - 128, x.2.2) else none,
    joins := f.joins }

/-- CRC of slots 0 to 126. -/
def ctlCrc (l : List Word) : Word := crc32 (wordBytes (l.take 127))

/-! ### Control slots (Table 12.3) -/

def LinkFrame.slot (f : LinkFrame) (i : Nat) : Word := f.ctl.getD i 0

/-- Consecutive slots. -/
def LinkFrame.slots (f : LinkFrame) (i n : Nat) : List Word := (List.range n).map fun k => f.slot (i + k)

/-- CRC and FORMAT are right and every control slot is valid (R318). -/
def LinkFrame.ok (f : LinkFrame) : Bool := f.whole && fld (f.slot 0) 0 8 = 1 && f.slot 127 = ctlCrc f.ctl

def LinkFrame.origin (f : LinkFrame) : Fin 32 := fin 32 (fld (f.slot 0) 10 5)
def LinkFrame.number (f : LinkFrame) : Word := f.slot 1
def LinkFrame.counter (f : LinkFrame) : Quad := (f.slot 3).zeroExtend 64 <<< 32 ||| (f.slot 2).zeroExtend 64
def LinkFrame.accDly (f : LinkFrame) : Nat := fld (f.slot 4) 0 24
def LinkFrame.tdist (f : LinkFrame) : Byte := BitVec.ofNat 8 (fld (f.slot 4) 24 8)
def LinkFrame.mgrPos (f : LinkFrame) : Nat := fld (f.slot 5) 0 5
def LinkFrame.stbyPos (f : LinkFrame) : Nat := fld (f.slot 5) 5 5
def LinkFrame.pair (f : LinkFrame) : Bool := bit (f.slot 5) 10
def LinkFrame.sync (f : LinkFrame) : Bool := bit (f.slot 5) 11
def LinkFrame.epoch (f : LinkFrame) : BitVec 4 := BitVec.ofNat 4 (fld (f.slot 5) 12 4)
def LinkFrame.hbSeq (f : LinkFrame) : Byte := BitVec.ofNat 8 (fld (f.slot 5) 16 8)
def LinkFrame.schedF (f : LinkFrame) : Word := f.slot 6
def LinkFrame.kind (f : LinkFrame) : Nat := fld (f.slot 7) 0 4
def LinkFrame.schedId (f : LinkFrame) : Nat := fld (f.slot 7) 4 12
def LinkFrame.target (f : LinkFrame) : Fin 32 := fin 32 (fld (f.slot 7) 16 5)
def LinkFrame.all (f : LinkFrame) : Bool := bit (f.slot 7) 21
def LinkFrame.passed (f : LinkFrame) : Word := f.slot 124

/-- The beacon of a position (slots 92 to 123). -/
def LinkFrame.cairn (f : LinkFrame) (p : Nat) : Word := f.slot (92 + p % 32)

/-- The frame has passed the active manager, which wrote MGR. -/
def LinkFrame.mgrHere (f : LinkFrame) : Bool := bit f.passed f.mgrPos && bit (f.cairn f.mgrPos) 6

/-- A tunnel's slots: header and words, and the acknowledgement slot: position, TSEQ, result, valid (R336, R337). -/
structure Tunnel where
  dest  : Fin 32
  mbox  : BoxId
  len   : BitVec 5
  tseq  : Byte
  valid : Bool
  w     : Vector Word 16
  ackPos   : Fin 32
  ackSeq   : Byte
  ackRes   : BitVec 2
  ackValid : Bool
deriving DecidableEq, Repr

/-- The tunnel whose header is in slot i. -/
def LinkFrame.tunnel (f : LinkFrame) (i : Nat) : Tunnel :=
  let h := f.slot i
  let a := f.slot (i + 17)
  { dest := fin 32 (fld h 0 5), mbox := fin 4 (fld h 5 2), len := BitVec.ofNat 5 (fld h 7 5), tseq := BitVec.ofNat 8 (fld h 12 8),
    valid := bit h 20, w := vof fun k => f.slot (i + 1 + k.val), ackPos := fin 32 (fld a 0 5), ackSeq := BitVec.ofNat 8 (fld a 5 8),
    ackRes := BitVec.ofNat 2 (fld a 13 2), ackValid := bit a 15 }

def LinkFrame.tdn (f : LinkFrame) : Tunnel := f.tunnel 8
def LinkFrame.tup (f : LinkFrame) : Tunnel := f.tunnel 26

/-- MIRROR (slots 44 to 75). -/
def LinkFrame.mseq (f : LinkFrame) : BitVec 12 := BitVec.ofNat 12 (fld (f.slot 44) 0 12)
def LinkFrame.mirrorWords (f : LinkFrame) : List Word := f.slots 45 (min 30 (fld (f.slot 44) 12 5))
def LinkFrame.refresh (f : LinkFrame) : Bool := bit (f.slot 44) 17
def LinkFrame.refEnd (f : LinkFrame) : Bool := bit (f.slot 44) 18
def LinkFrame.mirrorAck (f : LinkFrame) : BitVec 12 := BitVec.ofNat 12 (fld (f.slot 75) 0 12)
def LinkFrame.mirrorAckValid (f : LinkFrame) : Bool := bit (f.slot 75) 12

/-- The admission message of slots 76 to 90 (Table 14.12). -/
def LinkFrame.admission (f : LinkFrame) : AdmitMsg :=
  let a := f.slot 76
  let b := f.slot 77
  let c := f.slot 78
  { kind := BitVec.ofNat 4 (fld a 0 4), route := BitVec.ofNat 12 (fld a 4 12), segid := BitVec.ofNat 3 (fld a 16 3),
    pos := BitVec.ofNat 5 (fld a 19 5), valid := bit a 24,
    srcChan := BitVec.ofNat 12 (fld b 0 12), srcPos := BitVec.ofNat 5 (fld b 16 5), srcSeg := BitVec.ofNat 3 (fld b 24 3),
    tap := BitVec.ofNat 7 (fld c 0 7), tapPos := BitVec.ofNat 5 (fld c 16 5), tapSeg := BitVec.ofNat 3 (fld c 24 3),
    bound := BitVec.ofNat 16 (fld (f.slot 79) 0 16), lat := BitVec.ofNat 16 (fld (f.slot 79) 16 16),
    elems := f.slots 81 (min 10 (fld (f.slot 80) 0 4)), broken := BitVec.ofNat 4 (fld (f.slot 80) 4 4) }

def LinkFrame.segid (f : LinkFrame) : BitVec 3 := BitVec.ofNat 3 (fld (f.slot 0) 16 3)

/-- The route that slot 91 acknowledges. -/
def LinkFrame.admitAck (f : LinkFrame) : Option (BitVec 12) :=
  if bit (f.slot 91) 12 then some (BitVec.ofNat 12 (fld (f.slot 91) 0 12)) else none

/-! ### The frame that leaves -/

/-- A slot of a frame that leaves; a channel that no device has filled is zero. -/
def LinkTx.slot (x : LinkTx) (i : Nat) : Word :=
  if i < 128 then x.ctl.getD i 0 else ((x.audio.find? fun y => y.1 = i - 128).map (·.2)).getD 0

/-- The payload of block b of a lane: of a ring port, or of a SPUR lane. -/
def LinkTx.payload (x : LinkTx) (spur : Bool) (lane : Fin 2) (b : Nat) : Quad :=
  let i := if spur then 2 * b else 4 * b + 2 * lane.val
  (x.slot (i + 1)).zeroExtend 64 <<< 32 ||| (x.slot i).zeroExtend 64

/-- The blocks of a lane in a tick, after a scrambled payload: the frame that the device sends in it, or idle blocks (R314); none where the
role holds the ridge, or SPUR, idle (Tables 01.4, 12.5). -/
def State.laneOut (s : State) (dir : Fin 4) (lane : Fin 2) (prev : Quad) : List (BitVec 2 × Quad) :=
  let n := s.frameBlocks
  let x := s.link.sent[dir]
  if s.standalone ∨ (2 ≤ dir.val ∧ !s.managerRole) then []
  else if x.ctl ≠ [] ∧ x.frame = s.clk.frame then
    lineBlocks true prev ((List.range n).map (x.payload (decide (2 ≤ dir.val)) lane))
  else lineBlocks false prev (List.replicate n 0)

end Sys2Proof.Machine
end

