-- ==== Sys2Proof/Machine/Approx.lean ====
section
/-! DEFINITION. Functions that the spec names and whose rounding it leaves open: dB, exponential, sine and angle. Each is a rational
within 2^−40 of the exact value here, and the device's value is a free value held within a stated bound of it (log 122). -/
namespace Sys2Proof.Machine
open Sys2Proof

/-- A free value held within a bound of a computed one. -/
def near (free mid bound : Rat) : Rat := max (mid - bound) (min (mid + bound) free)

/-- The bound of a free rounding. -/
def roundBound : Rat := 1 / 1099511627776

/-- A free integer held to the two integers around an exact value that lies from lo up to, but not at, lo + 1. -/
def nearInt (free lo : Int) (exact : Bool) : Int := if exact then lo else max lo (min (lo + 1) free)

/-- 1 in the fixed point that the series use. -/
def fxOne : Int := 18446744073709551616

/-- A rational in fixed point, toward zero or below. -/
def toFx (x : Rat) : Int := (x * fxOne).floor

/-- A product in fixed point. -/
def fxMul (x y : Int) : Int := x * y / fxOne

/-- Terms of the exponential series of y in fixed point, from the n-th term t on. -/
def expTerms (y : Int) : Nat → Nat → Int → Int → Int
  | 0, _, _, a => a
  | k + 1, n, t, a => expTerms y k (n + 1) (fxMul t y / (n + 1 : Nat)) (a + t)

/-- Square n times. -/
def fxSquares : Nat → Int → Int
  | 0, x => x
  | n + 1, x => fxSquares n (fxMul x x)

/-- e^x for −16 ≤ x ≤ 0. -/
def expNeg (x : Rat) : Rat := if x = 0 then 1 else (fxSquares 5 (expTerms (toFx (x / 32)) 20 0 fxOne 0) : Rat) / fxOne

/-- The largest y that k halved steps w reach upward from y without e^y exceeding r. -/
def lnFrom (r : Rat) : Nat → Rat → Rat → Rat
  | 0, y, _ => y
  | k + 1, y, w => lnFrom r k (if expNeg (y + w) ≤ r then y + w else y) (w / 2)

/-- ln r for e^−16 ≤ r ≤ 1. -/
def lnNeg (r : Rat) : Rat := if r = 1 then 0 else lnFrom r 56 (-16) 8

/-- ln 10 / 20. -/
def lnDb : Rat := 11512925464970228420 / 100000000000000000000

/-- 10^(g / 20) for a gain g in dB from −120 to 0. -/
def dbExact (g : Rat) : Rat := expNeg (g * lnDb)

/-- Terms of the sine series: the n-th term is t, the square of the angle is q. -/
def sinTerms (q : Int) : Nat → Nat → Int → Int → Int
  | 0, _, _, a => a
  | k + 1, n, t, a => sinTerms q k (n + 1) (-(fxMul t q / ((2 * n + 2) * (2 * n + 3) : Nat))) (a + t)

/-- sin (2 π x), x in turns. -/
def sinTurns (x : Rat) : Rat :=
  let f := x - (x + 1/2).floor
  let f := if f < -1/4 then -1/2 - f else if 1/4 < f then 1/2 - f else f
  let a := toFx (f * (115904311329233965478 / 18446744073709551616))
  (sinTerms (fxMul a a) 16 0 a 0 : Rat) / fxOne

/-- cos (2 π x). -/
def cosTurns (x : Rat) : Rat := sinTurns (x + 1/4)

/-- The point lies at or beyond the angle of n hundredths of a degree, seen from half a turn before to half a turn after it. -/
def beyond (re im : Rat) (n : Int) : Bool := decide (0 ≤ im * cosTurns ((n : Rat) / 36000) - re * sinTurns ((n : Rat) / 36000))

/-- The largest n from lo to lo + 2^k − 1, up to hi, that a point of the upper half plane lies beyond. -/
def angleFrom (re im : Rat) (hi : Int) : Nat → Int → Int
  | 0, n => n
  | k + 1, n => angleFrom re im hi k (if n + 2 ^ k ≤ hi ∧ beyond re im (n + 2 ^ k) then n + 2 ^ k else n)

/-- The angle of a complex number in hundredths of a degree, rounded down, from −18,000 to 18,000. -/
def angleFloor (re im : Rat) : Int :=
  if 0 ≤ im then angleFrom re im 18000 15 0 else (-1) - angleFrom re (-im) 18000 15 0

/-- (n / 2^31)^200 is at most 10^l: n is no more than the amplitude of a level l in 0.1 dB. -/
def belowLevel (n : Nat) (l : Int) : Bool :=
  if 0 ≤ l then decide (n ^ 200 ≤ 2147483648 ^ 200 * 10 ^ l.toNat) else decide (n ^ 200 * 10 ^ l.natAbs ≤ 2147483648 ^ 200)

/-- The largest n from r up to r + 2^k − 1 whose amplitude does not exceed the level. -/
def levelFrom (l : Int) : Nat → Nat → Nat
  | 0, r => r
  | k + 1, r => levelFrom l k (if belowLevel (r + 2 ^ k) l then r + 2 ^ k else r)

/-- 2^31 × 10^(l / 200), rounded down, for a level l of at most 0 dBFS in 0.1 dB (R193). -/
def levelFloor (l : Int) : Nat := levelFrom l 32 0

/-- The amplitude that a level in 0.1 dB names; only its rounding is free (R193). -/
def levelAmp (l : Int) : Nat :=
  (nearInt (Config.amplitude l) (levelFloor l) (decide (l = 0))).toNat

/-- A gain in dB as a factor; 0 dB is 1 (R272). -/
def dbFactor (db : Rat) : Rat := if db = 0 then 1 else near (Config.dbToLinear db) (dbExact db) roundBound

end Sys2Proof.Machine
end

