-- ==== Sys2Proof/Machine/Clock.lean ====
section
/-! DEFINITION. The counters as core cycles pass, and the clock outputs (11). -/
namespace Sys2Proof.Machine
open Sys2Proof

/-! ### Core cycles -/

/-- The system counter counts: the die is out of internal reset and awake, and SYS can run (R305, R306). -/
def State.counting (s : State) : Bool :=
  s.boot.phase ≠ .held && s.boot.phase ≠ .sleeping && !(s.clk.fallback && bit s.sup.quiet 4)

/-- The odd member of a pair that forms one LVDS output; its settings are ignored (R294). -/
def State.pairedOdd (s : State) (n : Fin 8) : Bool := n.val % 2 = 1 && (s.clk.out[fin 8 (n.val - 1)]).format = .lvds

/-- Periods of an output's source in a core cycle: REF is 1/32 of the core clock, ASn f_in × (NINT + NFRAC / 2^24) / P
(R290, R293). -/
def State.srcRate (s : State) (o : ClkOut) : Rat :=
  match o.src with
  | .off => 0
  | .ref => 1/32
  | .asn n => ((s.clk.asn[n].nint * 16777216 + s.clk.asn[n].nfrac : Nat) : Rat) / (536870912 * s.clk.asn[n].p : Nat)

/-- Source periods for which an output is high in each of its own (R293). -/
def ClkOut.highs (o : ClkOut) : Nat := (o.d + 1) / 2

/-- Whole source periods since phase 0. -/
def ClkOut.phase (rate : Rat) (o : ClkOut) : Nat := (o.age * rate).floor.toNat

/-- A running output is high: in the high phase, or before a restart as it was (R293, R297). -/
def ClkOut.high (rate : Rat) (o : ClkOut) : Bool := if o.age < 0 then o.early else decide (o.phase rate % o.d < o.highs)

/-- The divider restarts at phase 0 with the next edge of its source, so that no pulse is shorter than a source period (R297, log 51). -/
def ClkOut.restart (rate : Rat) (o : ClkOut) : ClkOut :=
  let x := o.age * rate
  if rate = 0 ∨ o.age < 0 then o else { o with age := (x - x.ceil) / rate, early := o.high rate }

/-- Armed outputs restart their dividers at phase 0 (R294, R297). -/
def restartArmed (s : State) : State :=
  { s with clk.out := vof fun n =>
      let o := s.clk.out[n]
      if o.arm && o.running && !s.pairedOdd n then o.restart (s.srcRate o) else o }

/-- An output after n core cycles. -/
def ClkOut.pass (n : Nat) (o : ClkOut) : ClkOut := { o with age := o.age + n, tail := o.tail - n }

/-- The counters and the outputs after n core cycles: the system counter counts them but for the counts that are held (R306). -/
def count (n : Nat) (s : State) : State :=
  { s with clk.sysCnt := s.clk.sysCnt + BitVec.ofNat 64 (n - s.clk.sysHold), clk.sysHold := s.clk.sysHold - n,
           clk.cyc := s.clk.cyc + n, clk.now := s.clk.now + n * timeUnit s.clk.family, clk.out := vmap (ClkOut.pass n) s.clk.out }

/-- n core cycles pass; the restart that a sync edge has ordered comes in the cycle in which it is due (R297). -/
def passCycles (n : Nat) (s : State) : State :=
  if s.counting then
    match s.clk.syncPend with
    | none => count n s
    | some k =>
      if k ≤ n then count (n - k) (restartArmed (count k { s with clk.syncPend := none }))
      else count n { s with clk.syncPend := some (k - n) }
  else s

/-- The counter, less the counts that are still held, gains a difference: it steps forward, or holds its value until the consist
value reaches it (R306). -/
def stepCounter (diff : Int) (s : State) : State :=
  let d := diff - s.clk.sysHold
  if 0 ≤ d then { s with clk.sysCnt := s.clk.sysCnt + BitVec.ofInt 64 d, clk.sysHold := 0 } else { s with clk.sysHold := d.natAbs }

/-! ### Clock outputs -/

/-- The chain of an output uses the reference: SRC is REF, or an AS that takes REF (R295). -/
def State.refFed (s : State) (o : ClkOut) : Bool :=
  match o.src with
  | .off => false
  | .ref => true
  | .asn n => !s.clk.asn[n].core

/-- The output's chain uses ASn. -/
def ClkOut.usesAs (o : ClkOut) (n : Fin 4) : Bool := o.src = .asn n

/-- The reference is there: a source is active and SYS is not in holdover. -/
def State.refOk (s : State) : Bool := s.clk.actSrc.isSome && !s.clk.hold

/-- Every synthesizer of the chain is locked, and the reference is there where the chain uses it (R295). -/
def State.chainOk (s : State) (o : ClkOut) : Bool :=
  match o.src with
  | .off => false
  | .ref => s.refOk
  | .asn n => s.clk.asn[n].lock && (if s.clk.asn[n].core then s.clk.sysLock else s.refOk)

/-- The level of an output: high for D/2 or (D+1)/2 source periods of D, low while it is OFF, stopped or gated, once a high phase in
progress is over (R293, R296). -/
def ClkOut.level (rate : Rat) (o : ClkOut) : Bool :=
  (o.running && o.high rate) || decide (0 < o.tail)

/-- The level of a CLKOUT ball; the odd ball of an LVDS pair is the inverse of the even one (R294). -/
def State.clkBall (s : State) (n : Fin 8) : Bool :=
  let o := s.clk.out[if s.pairedOdd n then fin 8 (n.val - 1) else n]
  (o.level (s.srcRate o)) ^^ s.pairedOdd n

/-- The output finishes its high phase and stays low (R296). -/
def ClkOut.gate (rate : Rat) (o : ClkOut) : ClkOut :=
  let q := o.phase rate
  let left : Rat := ((q - q % o.d + o.highs : Nat) : Rat) / rate - o.age
  { o with running := false, tail := if o.running ∧ o.high rate then left.ceil.toNat else o.tail }

/-- Gate the running outputs that satisfy p; CLK_OUT names them (R296). -/
def gateOuts (p : ClkOut → Bool) (s : State) : State :=
  let g := (idx 8).filter fun n => s.clk.out[n].running && p s.clk.out[n]
  if g = [] then s
  else raise 0x8207 [maskOf g, 0]
    { s with clk.out := vmap (fun (o : ClkOut) => if o.running && p o then o.gate (s.srcRate o) else o) s.clk.out }

/-- The quiet state holds the outputs low; that of the start does so until the firmware has them run, in step 5 (R296, R415). -/
def State.outsHeld (s : State) : Bool := s.isQuiet && !(s.sup.quiet = 1 && s.boot.phase = .firmware && !s.fw.started)

/-- Outputs that may restart: started, gated, their chain locked, the device not quiet (R296). -/
def State.restartable (s : State) (n : Fin 8) : Bool :=
  let o := s.clk.out[n]
  o.started && !o.running && s.chainOk o && !s.outsHeld && !s.pairedOdd n

/-- Start outputs together at phase 0 of one source edge (R295). -/
def runOuts (p : Fin 8 → Bool) (s : State) : State :=
  { s with clk.out := vof fun n => if p n then { s.clk.out[n] with running := true, age := 0, early := false, tail := 0 } else s.clk.out[n] }

/-- All gated outputs whose chain is locked again restart together; CLK_OUT names them (R296). -/
def restartOuts (s : State) : State :=
  let g := (idx 8).filter s.restartable
  if g = [] then s else raise 0x8207 [0, maskOf g] (runOuts s.restartable s)

/-! ### Bands and acquisition (R292) -/

/-- The band that an acquisition takes: the entry of the bucket, or band 8 when it is not VALID. -/
def State.bandFor (s : State) (y : SynId) (b : Fin 16) : BitVec 6 :=
  if (s.clk.band[y][b]).1 then (s.clk.band[y][b]).2 else 8

/-- An acquisition of lock selects the band. -/
def acquire (y : SynId) (b : Fin 16) (s : State) : State :=
  { s with clk.bandIn := s.clk.bandIn.set y.val (s.bandFor y b), clk.bucketIn := s.clk.bucketIn.set y.val (some b) }

/-- A band table filled from the factory trim. -/
def fillBands (y : SynId) (s : State) : State :=
  { s with clk.band := s.clk.band.set y.val (vof fun i => Config.trimBand y i) }

end Sys2Proof.Machine
end

