-- ==== Sys2Proof/Machine/PowerOps.lean ====
section
/-! DEFINITION. Channels of the power stage: readings, changes of state, going quiet, and the quiet state of the device
(09, 10, 17). -/
namespace Sys2Proof.Machine
open Sys2Proof

/-! ### Readings -/

/-- The rail reading V_meas in V: code × 1.25 V × RATIO / 4,096, RATIO in 1/64 (R241). -/
def Rail.meas (r : Rail) : Rat := (r.code.toNat : Rat) * (5/4) * ((r.ratio : Rat) / 64) / 4096

/-- The VBATS reading in V. -/
def State.vbats (s : State) : Rat := (s.pcd.vbatsMv : Rat) / 1000

/-- A setting in 0.5 V. -/
def halfV (n : Nat) : Rat := (n : Rat) / 2

/-- V_floor of a group (R254). -/
def State.vfloor (s : State) (r : RailId) : Rat := max (s.vbats - 1/2) (halfV s.pcd.rail[r].vidleIn)

/-- The controller regulates. -/
def BoostMode.boosting : BoostMode → Bool
  | .pass => false | .fixed | .track => true

/-- The feedback check of Table 09.5 holds. -/
def State.feedbackOk (s : State) (r : RailId) : Bool :=
  !(s.pcd.rail[r].mode.boosting && s.pcd.rail[r].bg) || decide (s.vbats - 3 ≤ s.pcd.rail[r].meas)

/-- Half-periods of the carrier in a second: 16 times the base rate; a boost period lasts as long (R239, R240). -/
def State.halfRate (s : State) : Nat := 16 * (baseRate s.clk.mrate.family).hz

/-- Core cycles in a second; a half-period has 1,024 (Table 01.2, R239). -/
def State.coreHz (s : State) : Nat := 16384 * (baseRate s.clk.family).hz

/-- The 2.0 ms of the look-ahead in half-periods, exactly: 1,536, or 1,411.2 at the 44.1 kHz family (R13, R240). -/
def State.lookDelay (s : State) : Rat := (s.halfRate : Rat) / 500

/-- Carrier periods of 1 ms: 384, or 353 at the 44.1 kHz family (R267). -/
def State.msCarriers (s : State) : Nat := match s.clk.mrate.family with | .f48 => 384 | .f44 => 353

/-- The conditions under which a channel goes quiet with its ramp (R278). -/
def State.rampOk (s : State) (c : ChanId) : Bool :=
  let r := s.pcd.rail[railOf c]
  decide (7 ≤ r.meas) && decide (r.meas ≤ 64) && s.feedbackOk (railOf c)
    && !s.pcd.ch[c].limited.any id && s.pcd.ch[c].limNow.isNone && s.pcd.refClock

/-- Readings of a rail ADC in a time given in ms, four in a carrier period (R241). -/
def State.readings (s : State) (ms : Nat) : Nat := (ms * 2 * s.halfRate + 999) / 1000

/-- BGn at a part of the present boost period (R254). -/
def Rail.gate (r : Rail) (t : Rat) : Bool := r.bg && decide (t < r.bgOn)

/-- The PCD has to stay quiet: the device's quiet state, its own stream watchdog, or its supplies (R14, R280, R436, R454). -/
def State.pcdHeld (s : State) : Bool := s.isQuiet || s.pcd.streamLost || s.pcd.supplyLow

/-! ### Gains -/

def Lin.move (l : Lin) (goal step : Rat) : Lin := { l with goal := goal, step := step }

/-- Reach a goal from the present value in n steps. -/
def Lin.within (l : Lin) (goal n : Rat) : Lin := l.move goal ((if l.v < goal then goal - l.v else l.v - goal) / n)

/-- One step of a linear gain toward its goal. -/
def Lin.tick (l : Lin) : Lin :=
  if l.v < l.goal then { l with v := min l.goal (l.v + l.step) } else { l with v := max l.goal (l.v - l.step) }

/-- The common-mode step per carrier period: 1 / (2 P), P the carrier periods in CMRAMP (R249). -/
def State.dutyStep (s : State) (c : ChanId) : Rat :=
  1 / (2 * ((s.pcd.ch[c].cfg.cmramp : Rat) * ((baseRate s.clk.mrate.family).hz : Rat) * 8 / 1000))

/-! ### Changes of state -/

/-- A channel changes state; PWR_STATE reports it (R248, R261). -/
def chTo (c : ChanId) (st : ChState) (s : State) : State :=
  let old := s.pcd.ch[c].st
  if old = st then s
  else raise 0x8701 [wordN c.val, wordN old.code, wordN st.code] (s.modCh c fun ch => { ch with st := st })

/-- All four gates go low at the start of the next carrier period (R250, R278): nothing is left of ramp, gain, stop order and of what
was on its way to the switch nodes. A limit of the period that ends there is still counted, and may still trip (R262, R267). -/
def Chan.gatesLow (ch : Chan) : Chan :=
  { ch with duty := 0, toRun := false, stopWhy := none, gch := .at 0, rateFall := false, mid := none, pipe := [],
            diagOnly := false }

/-- Go to a quiet state at once. -/
def chQuiet (c : ChanId) (st : ChState) (s : State) : State := chTo c st (s.modCh c Chan.gatesLow)

/-- The end of a stop: HOT after a thermal stop, with PWR_HOT, and OFF after any other (R275). -/
def chFinish (c : ChanId) (why : StopWhy) (s : State) : State :=
  if why = .thermal then
    raise 0x8708 [wordN c.val, wordN s.pcd.ch[c].hotSrc] (chQuiet c .hot s)
  else chQuiet c .off s

/-- RAMP_UP from the present duty (R249); the group's rail is no longer without a switching channel (R268). -/
def rampUp (c : ChanId) (s : State) : State :=
  chTo c .rampUp ((s.modRail (railOf c) fun r => { r with idle := false }).modCh c fun ch => { ch with dutyStep := s.dutyStep c, toRun := false, stopWhy := none, gch := .at 0, diagOnly := false })

/-- RAMP_DOWN from the present duty (R249). -/
def rampDown (c : ChanId) (why : StopWhy) (s : State) : State :=
  chTo c .rampDown (s.modCh c fun ch =>
    { ch with dutyStep := s.dutyStep c, toRun := false, stopWhy := some why, gch := .at 0 })

/-- A channel goes quiet, with its ramp when R278 allows it and at once otherwise. -/
def goQuiet (c : ChanId) (why : StopWhy) (s : State) : State :=
  let ch := s.pcd.ch[c]
  match ch.st with
  | .run =>
    if s.rampOk c then
      if ch.stopWhy.isSome then s
      else s.modCh c fun ch =>
        { ch with stopWhy := some why, gch := ch.gch.move 0 (if ch.rateFall then max ch.gch.step (1/480) else 1/480) }
    else chFinish c (ch.stopWhy.getD why) s
  | .rampUp => if s.rampOk c then rampDown c why s else chFinish c why s
  | .rampDown => if s.rampOk c then s else chFinish c (ch.stopWhy.getD why) s
  | _ => s

/-- ILIM and LSUP of a channel that starts or retries (R284). -/
def Chan.latchSup (ch : Chan) : Chan := { ch with ilimIn := ch.cfg.ilim, lsupIn := ch.cfg.lsup }

/-- BGn is held low as a diagnostic starts when no channel of the group is in RUN or a ramp (R263). -/
def diagRail (r : RailId) (s : State) : State :=
  let busy := (idx 16).any fun (k : ChanId) => railOf k = r && s.pcd.ch[k].st.switching
  if busy then s else s.modRail r fun x => { x with bg := false }

/-- A channel enters DIAG and its diagnostic starts (Table 10.1, R263). -/
def startDiag (c : ChanId) (retry : Bool) (s : State) : State :=
  diagRail (railOf c) (chTo c .diag (s.modCh c fun ch => ({ ch with retrying := retry, diagOnly := false } : Chan).latchSup))

/-- The diagnostic of PWR_DIAG: Table 10.1 has no way from OFF into DIAG but a start command, so the channel stays in OFF (log 119). -/
def diagInOff (c : ChanId) (s : State) : State := diagRail (railOf c) (s.modCh c fun ch => { ch with diagOnly := true })

/-- A start command (R252, R262, Tables 09.3 and 10.1). While the PCD has to stay quiet, a channel that is on its way to OFF goes on and
restarts when the quiet state ends (R280). -/
def startCh (c : ChanId) (s : State) : State :=
  let st := s.pcd.ch[c].st
  if s.pcdHeld ∧ (st = .rampDown ∨ st = .run) then s.modCh c fun ch => { ch with wasRun := true }
  else match st with
  | .off | .diagFail => startDiag c false s
  | .locked => startDiag c false (s.modCh c fun ch => { ch with trips := [] })
  | .rampDown => rampUp c s
  | .run => s.modCh c fun ch =>
      if ch.stopWhy.isSome then { ch with stopWhy := none, gch := ch.gch.move 1 (1/480) } else ch
  | _ => s

/-- A stop command (R252, Tables 09.3 and 10.1). -/
def stopCh (c : ChanId) (why : StopWhy) (s : State) : State :=
  match s.pcd.ch[c].st with
  | .off | .rampDown => s
  | .run | .rampUp => goQuiet c why s
  | _ => chQuiet c .off s

/-! ### The quiet state of the device (R280, R440) -/

/-- Every channel and group goes quiet; channels that were running are remembered. -/
def pcdQuiet (why : StopWhy) (s : State) : State :=
  let s := forIdx 16 (fun c s =>
    let ch := s.pcd.ch[c]
    let ran := (ch.st = .run && ch.stopWhy.isNone) || ch.st = .rampUp
    goQuiet c why (if ran then s.modCh c fun ch => { ch with wasRun := true } else s)) s
  { s with pcd.quiet := true, pcd.rail := vmap (fun (r : Rail) => { r with bg := false }) s.pcd.rail }

/-- Channels that were running restart with RAMP_UP; others keep their state (R280). -/
def pcdRelease (s : State) : State :=
  forIdx 16 (fun c s =>
    let ch := s.pcd.ch[c]
    if ch.wasRun then
      let s := s.modCh c fun ch => { ch with wasRun := false }
      match ch.st with
      | .off | .rampDown => rampUp c (if ch.st = .off then s.modCh c Chan.latchSup else s)
      | .run => s.modCh c fun ch => { ch with stopWhy := none, gch := ch.gch.move 1 (1/480) }
      | _ => s
    else s) { s with pcd.quiet := false }

/-- Every audition that runs is aborted at the next boundary, with cause 8 of Table 06.4 (R171). -/
def quietAuditions (s : State) : State :=
  let l := (idx 16).filter fun g => match s.grp[g].aud with | some a => !a.ended | none => false
  { s with fw.sched := s.fw.sched ++ l.map fun g => { due := .next, change := .abort g 8 } }

/-- Set quiet-state causes; the first one enters the quiet state. -/
def setQuiet (causes : BitVec 7) (s : State) : State :=
  let new := s.sup.quiet ||| causes
  let t := { s with sup.quiet := new }
  if s.sup.quiet = 0 ∧ new ≠ 0 then
    quietAuditions <| gateOuts (fun _ => true) (pcdQuiet .quiet (raise 0x8108 [1, new.zeroExtend 32] (intset 1 t)))
  else if !s.outsHeld && t.outsHeld then gateOuts (fun _ => true) t
  else t

/-- Clear quiet-state causes; Capo-S releases the quiet state when the last one clears. A quiet of the PCD's own goes on (R436). -/
def clearQuiet (causes : BitVec 7) (s : State) : State :=
  let new := s.sup.quiet &&& ~~~causes
  let t := { s with sup.quiet := new }
  if s.sup.quiet ≠ 0 ∧ new = 0 then
    let t := raise 0x8108 [0, new.zeroExtend 32] (intset 1 t)
    if t.pcdHeld then t else pcdRelease t
  else t

end Sys2Proof.Machine
end

