-- ==== Sys2Proof/Machine/LinkOps.lean ====
section
/-! DEFINITION. The ridge link as shared operations: what the device writes into frames, taps at a boundary, routes, leaving a
segment (12). -/
namespace Sys2Proof.Machine
open Sys2Proof

/-! ### Roles -/

/-- The device forwards frames of its ring. -/
def State.member (s : State) : Bool := !s.standalone && s.link.joined && !s.link.left

/-- The summit manager (R339). -/
def State.summit (s : State) : Bool :=
  s.managerRole && s.link.active && (s.link.ports[2]).lanes[1] && !(s.link.ports[2]).lanes[0]

/-- M runs at twice the base rate. -/
def State.fast (s : State) : Bool := s.clk.mrate.cycles = 8192

/-- Channels of a link, by link code 0 ring, 1 and 2 SPUR lanes (Table 12.2). -/
def State.linkChannels (s : State) (link : Nat) : Nat :=
  if link = 0 then (if s.fast then 1920 else 3968) else (if s.fast then 896 else 1920)

/-! ### What a device writes into a frame (Table 12.3, R319, R321) -/

/-- The mean of sensor readings in whole °C; 0 before the first reading. -/
def meanC (l : List Int) : Int := if l = [] then 0 else l.foldl (· + ·) 0 / (10 * l.length)

def countIf (p : α → Bool) (l : List α) : Nat := (l.filter p).length

/-- The cairn beacon (Table 12.4). -/
def State.beacon (s : State) : Word :=
  let st := if s.isQuiet then 4 else if s.link.left then 5 else if s.clk.hold then 3 else if s.link.joined then 2 else 1
  wordN (st + s.boot.straps.role.toNat <<< 4 + boolN s.link.active <<< 6 + boolN (s.link.comp ≠ 0) <<< 7
    + (min 4 (countIf (fun (x : Engine) => x.st = .spare) s.eng.toList)) <<< 8
    + (min 15 (countIf (fun (c : Chan) => c.st.protection) s.pcd.ch.toList)) <<< 12
    + ((meanC s.pcd.dieT + 64).toNat % 256) <<< 16
    + (min 15 (countIf (fun (p : Port) => p.st = .lost) s.port.toList)) <<< 24
    + maskOfBools (s.link.ports.toList.map (·.up)) <<< 28)

/-- The MGR slot of the active manager. -/
def Link.mgrSlot (l : Link) : Word :=
  wordN (l.mgrPos % 32 + (l.stbyPos % 32) <<< 5 + boolN l.paired <<< 10 + boolN l.sync <<< 11 + l.epoch.toNat <<< 12
    + l.hbSeq.toNat <<< 16)

/-- Consecutive slots from a first one. -/
def slotsFrom (a : Nat) (l : List Word) : List (Nat × Word) := (List.range l.length).zip l |>.map fun x => (a + x.1, x.2)

/-- Slots replaced in a frame. -/
def overlay (l : List Word) (x : List (Nat × Word)) : List Word := x.foldl (fun l y => l.set y.1 y.2) l

/-- A tunnel header (R336). -/
def tunnelHead (dest : Nat) (m : Msg) (tseq : Byte) : Word :=
  wordN (dest + m.box.val <<< 5 + m.len.toNat <<< 7 + tseq.toNat <<< 12 + 1 <<< 20)

/-- The words of an admission message (Table 14.12); slot 91 is its acknowledgement. -/
def admitWords (m : AdmitMsg) : List Word :=
  [wordN (m.kind.toNat + m.route.toNat <<< 4 + m.segid.toNat <<< 16 + m.pos.toNat <<< 19 + boolN m.valid <<< 24),
   wordN (m.srcChan.toNat + m.srcPos.toNat <<< 16 + m.srcSeg.toNat <<< 24),
   wordN (m.tap.toNat + m.tapPos.toNat <<< 16 + m.tapSeg.toNat <<< 24),
   wordN (m.bound.toNat + m.lat.toNat <<< 16),
   wordN (m.elems.length + m.broken.toNat <<< 4)] ++ m.elems.take 10

/-- The ADMIT slots: the oldest message, which is repeated until it is acknowledged, and the acknowledgement. -/
def Link.admitSlots (l : Link) : List (Nat × Word) :=
  (match l.admitOut with | m :: _ => slotsFrom 76 (admitWords m) | [] => [])
  ++ (match l.admitAck with
      | some r => [(91, wordN (r.toNat + 1 <<< 12 + l.segid.toNat <<< 13))]
      | none => [])

/-- The message of an outbound mailbox as TUP carries it. -/
def State.outMsg (s : State) (b : BoxId) : Msg := { box := b, len := s.host.mbo[b].len, w := s.host.mbo[b].w }

/-- The position under which the device originates frames; a device without one terminates none. -/
def State.originPos (s : State) : Nat :=
  match s.link.pos with | some p => p.val | none => if s.link.active then 0 else 32

/-- This device's position in a field; 0 without one. -/
def State.posField (s : State) : Nat := match s.link.pos with | some p => p.val | none => 0

/-- Core cycles from receive lane to transmit lane of a direction: free up to 400 ns (R321). -/
def State.forwardDelay (s : State) (dir : Nat) : Nat := min (s.coreHz * 400 / 1000000000) (Config.forwardDelay dir)

/-- What an origin writes: HEADER, FRAME and COUNTER. -/
def State.headSlots (s : State) (dir : Nat) (n : Word) : List (Nat × Word) :=
  let c := s.clk.sysCnt - BitVec.ofNat 64 s.clk.cyc
  [(0, wordN (1 + boolN (dir = 1) <<< 8 + boolN (decide (2 ≤ dir)) <<< 9 + (s.originPos % 32) <<< 10 + s.link.segid.toNat <<< 16)),
   (1, n), (2, c.truncate 32), (3, (c >>> 32).truncate 32)]

/-- ACCDLY and TDIST: an origin starts at 0, any other device adds the delay of its receive link and its own (R321). -/
def State.delaySlot (s : State) (dir : Nat) (base : Option LinkFrame) : Word :=
  let d := match base with | some f => f.accDly + f.delay + s.forwardDelay dir | none => 0
  wordN (d % 16777216 + s.link.tdist.toNat <<< 24)

/-- Frames of the full refresh of the mirror: free, from 1 to 256 (R332). -/
def refreshLen : Nat := max 1 (min 256 Config.refreshFrames)

/-- The words of this frame's mirror: their number and contents are free, since their layout is not given (R332, log 89). -/
def Link.mirrorWords (l : Link) : List Word :=
  (List.range ((Config.freeWord l.mirrorNo).toNat % 31)).map fun i => Config.freeWord (l.mirrorNo + 1 + i)

/-- The mirror slots of the active member. -/
def Link.mirrorSlots (l : Link) : List (Nat × Word) :=
  let w := l.mirrorWords
  slotsFrom 44 (wordN (l.mseq.toNat + w.length <<< 12 + boolN (l.refreshAt = 0) <<< 17 + boolN (l.refreshAt + 1 = refreshLen) <<< 18)
    :: w ++ List.replicate (30 - w.length) 0)

/-- The manager lies downstream of this device in a frame that it forwards: the frame has not passed it, or ends at it; a frame of its
own reaches it while a port has a path (R337). -/
def State.downstream (s : State) (base : Option LinkFrame) : Bool :=
  match base with
  | none => s.link.tdist ≠ 255
  | some f =>
    !bit f.passed s.link.mgrPos
      || (f.origin.val = s.link.mgrPos && bit (s.link.ports[fin 3 (1 - f.port.val)]).passed s.link.mgrPos)

/-- What the active manager writes into a frame of a direction: MGR, SCHED, TDN, TUP cleared with the acknowledgement of what came from
where the frame leaves to, and MIRROR when it is one of a pair. -/
def Link.mgrSlots (l : Link) (dir : Nat) : List (Nat × Word) :=
  (5, l.mgrSlot)
  :: (match l.schedOut with
      | x :: _ => [(6, x.f), (7, wordN (x.kind + x.id <<< 4 + x.target <<< 16 + boolN x.all <<< 21))]
      | [] => [(6, 0), (7, 0)])
  ++ (match l.tunnelOut with
      | x :: _ => slotsFrom 8 (tunnelHead x.1.val x.2 l.tdnSeq :: x.2.w.toList)
      | [] => slotsFrom 8 (List.replicate 17 0))
  ++ slotsFrom 26 (List.replicate 17 0)
  ++ [(43, match l.tupAck[fin 2 dir] with | some a => wordN (a.1.val + a.2.toNat <<< 5 + 1 <<< 15) | none => 0)]
  ++ (if l.paired then l.mirrorSlots else [])

/-- What any other device writes: the acknowledgement of TDN where TDN is its own, or empty while the manager addresses this device; a
message in a TUP that came with VALID clear toward the manager; and the standby's acknowledgement of the mirror (R332, R336, R337). -/
def State.workerSlots (s : State) (base : Option LinkFrame) : List (Nat × Word) :=
  let l := s.link
  let tdn := base.map LinkFrame.tdn
  let mine := match tdn with | some t => if t.valid then decide (t.dest.val = s.posField) else l.ackLive | none => l.ackLive
  (match l.tunnelAck with
   | some a => if mine then [(25, wordN (s.posField + a.1.toNat <<< 5 + a.2.toNat <<< 13 + 1 <<< 15))] else []
   | none => [])
  ++ (match l.tup with
      | some b =>
        if s.downstream base && !((base.map fun f => f.tup.valid).getD false) then
          slotsFrom 26 (tunnelHead s.posField (s.outMsg b) l.tupSeq :: s.host.mbo[b].w.toList)
        else []
      | none => [])
  ++ (if l.standby then [(75, wordN (l.mseq.toNat + boolN l.sync <<< 12))] else [])

/-- The control slots that the device replaces in a ring frame; an origin writes all of them. -/
def State.ringCtl (s : State) (dir : Nat) (n : Word) (base : Option LinkFrame) : List (Nat × Word) :=
  (match base with | none => s.headSlots dir n | some _ => [])
  ++ (4, s.delaySlot dir base) :: (if s.link.active then s.link.mgrSlots dir else s.workerSlots base) ++ s.link.admitSlots
  ++ (match s.link.pos with
      | some p => [(92 + p.val, s.beacon), (124, ((base.map fun f => f.passed).getD 0) ||| wordN (2 ^ p.val))]
      | none => [])
  ++ [(125, 0), (126, 0)]

/-- The control slots of a SPUR frame: its origin's, ADMIT and the beacons of the segments, its own among them (R339). -/
def State.spurCtl (s : State) (dir : Nat) (n : Word) : List (Nat × Word) :=
  s.headSlots dir n ++ (4, s.delaySlot dir none) :: s.link.admitSlots
  ++ slotsFrom 92 s.link.segs.toList ++ [(92 + s.link.segid.toNat, s.beacon), (124, wordN (2 ^ s.posField))]

/-- The channels that the device owns on a link, with C_(n−1) (R18, R321). -/
def State.owned (s : State) (link : Nat) : List (Nat × Word) :=
  if s.link.pos = none then []
  else (idx 64).filterMap fun i => match s.link.tx[i] with
    | some (k, c) => if k = link then some (c, s.mtx.colPrev[fin 256 (64 + i.val)]) else none
    | none => none

/-- A frame with the channels that the device owns replaced. -/
def withOwn (own : List (Nat × Word)) (l : List (Nat × Word)) : List (Nat × Word) :=
  (l.filter fun x => !own.any fun y => y.1 = x.1) ++ own

/-- Send frame n of a direction or SPUR lane: the frame that came, forwarded, or one of its own; the CRC is computed last. -/
def transmit (dir : Fin 4) (n : Word) (base : Option LinkFrame) (s : State) : State :=
  let ctl := overlay ((base.map fun f => f.ctl).getD (List.replicate 128 0))
    (if dir.val < 2 then s.ringCtl dir.val n base else s.spurCtl dir.val n)
  let x : LinkTx := { frame := n, orig := base.isNone, ctl := ctl.set 127 (ctlCrc ctl),
                      audio := withOwn (s.owned (dir.val - 1)) ((base.map fun f => f.audio).getD []) }
  { s with link.sent := s.link.sent.set dir.val x }

/-- The device originates the next frame of a direction: a frame ended here, or it has not yet come back to where it begins, or the receive
port there counts as a ring break (R320). -/
def State.originates (s : State) (east : Bool) : Bool :=
  s.member && (if east then s.link.originE ≠ .no || (s.link.ports[1]).broken else s.link.originW ≠ .no || (s.link.ports[0]).broken)

/-- What is left of it when the frame has been sent. -/
def Origin.sent : Origin → Origin
  | .held => .held | .due | .no => .no

/-- The frames that the device originates at boundary n (R320, R339). -/
def originate (s : State) : State :=
  let n := s.clk.frame
  let s := if s.originates true then transmit 0 n none s else s
  let s := if s.originates false then transmit 1 n none s else s
  let s : State := { s with link.originE := s.link.originE.sent, link.originW := s.link.originW.sent }
  if s.managerRole && s.fw.started then transmit 3 n none (transmit 2 n none s) else s

/-- A position holds no device that takes commands: no member has it, or its beacon reads empty, quiet or left. -/
def State.absent (s : State) (p : Nat) : Bool :=
  !s.link.members.any fun m => m.pos = p && !(decide (m.beacon.toNat % 16 = 0 ∨ m.beacon.toNat % 16 = 4 ∨ 5 ≤ m.beacon.toNat % 16))

/-! ### The tunnel as the manager uses it (R336) -/

/-- A message waits for TDN to a device. -/
def sendTunnel (d : Fin 32) (m : Msg) (s : State) : State := { s with link.tunnelOut := s.link.tunnelOut ++ [(d, m)] }

/-- A command of the manager's own for a device, with parameter words from W2 and a frame; its SEQ is new. -/
def ownCommand (box : BoxId) (code : Nat) (f : Option Word) (ws : List Word) (s : State) : Msg × State :=
  let w0 := BitVec.ofNat 32 (code + s.link.jobSeq.toNat * 65536 + boolN f.isSome * 33554432)
  (mkMsg box (w0 :: f.getD 0 :: ws), { s with link.jobSeq := s.link.jobSeq + 1 })

/-- A command of the manager's own goes to a device: its response is the manager's. -/
def sendKept (d : Fin 32) (m : Msg) (s : State) : State :=
  sendTunnel d m { s with link.ownKeys := s.link.ownKeys ++ [(d, fld m.w[0] 0 24)] }

/-- Such a command with new words. -/
def sendOwn (d : Fin 32) (box : BoxId) (code : Nat) (f : Option Word) (ws : List Word) (s : State) : State :=
  let r := ownCommand box code f ws s
  sendKept d r.1 r.2

/-- The frame in which a schedule goes out that is queued after k others now: one leaves in each frame from the next on (R157). -/
def State.sendFrame (s : State) (k : Nat) : Word := s.clk.frame + BitVec.ofNat 32 (1 + s.link.schedOut.length + k)

/-- A frame is at least 64 after that one. -/
def State.farEnough (s : State) (k : Nat) (f : Word) : Bool := decide (64 ≤ (f - s.sendFrame k).toInt)

/-- A frame that the manager chooses: at least 64 after the one in which the schedule goes out (log 52). -/
def State.pickFrame (s : State) (k : Nat) : Word × State :=
  let (n, t) := s.fresh
  (s.sendFrame k + 64 + (Config.freeWord n &&& 0xFFFF), t)

/-! ### Routes (R341, R342) -/

/-- An admission message of this device with no content but its kind and route. -/
def State.admitMsg (s : State) (kind : BitVec 4) (id : Nat) : AdmitMsg :=
  { kind := kind, route := BitVec.ofNat 12 id, segid := s.link.segid,
    pos := match s.link.pos with | some p => BitVec.ofNat 5 p.val | none => 0,
    valid := true, srcChan := 0, srcPos := 0, srcSeg := 0, tap := 0, tapPos := 0, tapSeg := 0, bound := 0, lat := 0, elems := [],
    broken := 0 }

/-- The element of a route whose samples a tap here takes: by channel, owner and segment; the last where none is listed so. -/
def State.tapElem (s : State) (id : Nat) (t : Tap) : Nat :=
  match s.link.routes.find? fun r => r.id = id with
  | some r => (r.elems.findIdx? fun w => !bit w 31 && fld w 0 12 = t.chan && fld w 16 5 = t.owner.val && fld w 24 3 = t.segid.toNat).getD
      (r.elems.length - 1)
  | none => 0

/-- An admission message waits for its frames. -/
def sendAdmit (m : AdmitMsg) (s : State) : State := { s with link.admitOut := s.link.admitOut ++ [m] }

/-- A known route that is not yet broken breaks: the summit reports it, any other element of the path sends a break message. -/
def breakRoute (id elem : Nat) (s : State) : State :=
  if s.link.routes.any fun r => r.id = id && !r.broken then
    let s := { s with link.routes := s.link.routes.map fun r => if r.id = id then { r with broken := true } else r }
    if s.summit then raise 0x8807 [wordN id, 0, wordN elem] s
    else sendAdmit { s.admitMsg 4 id with broken := BitVec.ofNat 4 elem } s
  else s

/-- The first element of a route whose device, in this segment, satisfies p: an element word's sender, or the sink. -/
def Route.here (segid : BitVec 3) (p : Nat → Bool) (r : Route) : Option Nat :=
  match r.elems.findIdx? fun w => fld w 24 3 = segid.toNat && p (fld w 16 5) with
  | some i => some i
  | none => if fld r.sink 24 3 = segid.toNat && p (fld r.sink 16 5) then some (r.elems.length - 1) else none

/-- The routes that are not broken and have such an element break. -/
def breakAt (p : Nat → Bool) (s : State) : State :=
  s.link.routes.foldl (fun s r => match r.here s.link.segid p with
    | some i => breakRoute r.id i s
    | none => s) s

/-- This device has a position. -/
def State.isPos (s : State) (p : Nat) : Bool := match s.link.pos with | some q => q.val = p | none => false

/-- A member whose beacon says quiet or left. -/
def State.gone (s : State) (p : Nat) : Bool :=
  s.link.members.any fun m => m.pos = p && (m.beacon.toNat % 16 = 4 || 5 ≤ m.beacon.toNat % 16)

/-- Routes break when a device on their path is quiet; the summit also watches the beacons of its segment (R342). -/
def watchRoutes (s : State) : State :=
  let s := if s.isQuiet then breakAt s.isPos s else s
  if s.summit then breakAt s.gone s else s

/-- Every route that is not broken breaks. -/
def breakAll (s : State) : State :=
  (s.link.routes.filter fun r => !r.broken).foldl (fun s r => breakRoute r.id 0 s) s

/-! ### Taps and transmit columns (R322, R323, R330) -/

def setTx (i : Fin 64) (x : Option (Nat × Nat)) (s : State) : State := { s with link.tx := s.link.tx.set i.val x }

/-- A tap that has received nothing; eastbound is selected, the copy that comes on WEST (R322). -/
def Tap.start (k c : Nat) (owner : Fin 32) (segid : BitVec 3) : Tap :=
  { link := k, chan := c, owner := owner, segid := segid, west := true, val := 0, missing := 0, arrived := 0, fade := .at 0,
    queue := [], route := none }

def setTap (i : Fin 128) (x : Option Tap) (s : State) : State := { s with link.taps := s.link.taps.set i.val x }

/-- Boundaries from a frame to its snapshot (Table 01.3). -/
def State.tapDelay (s : State) : Nat := if s.fast then 3 else 2

/-- The selected copy of a frame: whether it came on WEST, and its sample. -/
def Tap.choose (t : Tap) (c : TapCopies) : Bool × Option Word :=
  let sel := if t.west then c.west else c.east
  let other := if t.west then c.east else c.west
  match sel, other with
  | some v, _ => (t.west, v)
  | none, some v => (!t.west, v)
  | none, none => (t.west, none)

/-- A tap takes the sample of a boundary; the code is that of LINK_TAP, if one is raised. A tap on an admitted route fades at
its first missing sample and fades in only when the route is restored (R342). -/
def Tap.take (n : Nat) (broken : Bool) (x : Option Word) (t : Tap) : Tap × Option Nat :=
  match x with
  | some v =>
    let a := min 64 (t.arrived + 1)
    let rise := t.fade.goal = 0 && decide (64 ≤ a) && !broken && t.fade.v = 0
    let u := { t with missing := 0, arrived := a, val := if t.fade.goal = 1 || t.fade.v = 0 then v else t.val,
                      fade := if rise then t.fade.move 1 (1/64) else t.fade }
    (u, if rise then some 2 else none)
  | none =>
    let m := min 3 (t.missing + 1)
    let u := { t with missing := m, arrived := 0 }
    if t.fade.goal ≠ 1 then (u, none)
    else if 3 ≤ m ∨ t.route.isSome then ({ u with fade := t.fade.move 0 (t.fade.v / n) }, some 1)
    else if m = 1 then (u, some 0) else (u, none)

/-- Ticks of 1 ms (Table 08.6). -/
def State.oneMs (s : State) : Nat := s.clk.mrate.hz / 1000

def modTap (i : Fin 128) (f : Tap → Tap) (s : State) : State :=
  { s with link.taps := s.link.taps.set i.val (s.link.taps[i].map f) }

/-- A tap's row fades to zero over 1 ms, with its event. -/
def tapFade (i : Fin 128) (s : State) : State :=
  match s.link.taps[i] with
  | some t =>
    if t.fade.goal = 0 then s
    else raise 0x8801 [wordN i.val, 1]
      (modTap i (fun t => { t with arrived := 0, fade := t.fade.move 0 (t.fade.v / s.oneMs) }) s)
  | none => s

/-- The route of a tap is broken. -/
def State.routeBroken (s : State) (t : Tap) : Bool :=
  match t.route with
  | some id => s.link.routes.any fun r => r.id = id && r.broken
  | none => false

/-- The tap names a ring channel that no device owns; only an active manager that has made every grant knows (R330, R333, log 105). -/
def State.ownerless (s : State) (t : Tap) : Bool :=
  s.link.active && s.link.grantsAll && t.link = 0 && !s.link.grants.contains (t.owner.val, t.chan)

/-- A tap at boundary n + 2 or n + 3: it takes the sample of frame n; while the device is out of its segment or has no position, none
is taken (R328). -/
def tapBoundary (i : Fin 128) (s : State) : State :=
  match s.link.taps[i] with
  | none => s
  | some t =>
    let due := s.clk.frame - BitVec.ofNat 32 s.tapDelay
    let c := (t.queue.find? fun c => c.frame = due).getD { frame := due, east := none, west := none }
    let sel := t.choose c
    let x := if s.link.left || s.link.pos.isNone || s.ownerless t || (s.isQuiet && t.route.isSome) then none else sel.2
    let r := Tap.take s.oneMs (s.routeBroken t) x
      { t with west := sel.1, queue := t.queue.filter fun c => decide (0 < (c.frame - due).toInt) }
    let s := { s with link.taps := s.link.taps.set i.val (some { r.1 with fade := r.1.fade.tick }) }
    let s := match r.2 with | some k => raise 0x8801 [wordN i.val, wordN k] s | none => s
    match r.2, t.route with
    | some 1, some id => breakRoute id (s.tapElem id t) s
    | _, _ => s

/-- The row of a tap in S_k. -/
def Tap.row (t : Tap) : Word := scaleQ t.val t.fade.v

/-! ### Leaving (R300, R327, R340) -/

/-- Every tap that satisfies p fades to zero over 1 ms. -/
def fadeTaps (p : Tap → Bool) (s : State) : State :=
  forIdx 128 (fun i s => match s.link.taps[i] with
    | some t => if p t then tapFade i s else s
    | none => s) s

/-- The device leaves its segment: it stops forwarding and originating, and its tap rows fade. -/
def leaveSegment (s : State) : State :=
  fadeTaps (fun _ => true)
    { breakAt s.isPos s with link.left := true, link.joined := false, link.originE := .no, link.originW := .no }

/-- The segment leaves the consist: SPUR taps fade, every route through it breaks, and no summit is left to answer its requests. -/
def leaveConsist (s : State) : State :=
  let s := s.link.asks.foldl (fun s m => queueReply none (answer m 0x24 0 []) s) { s with link.asks := [] }
  breakAll (fadeTaps (fun t => t.link ≠ 0 || t.route.isSome) { s with link.consist := false })

/-- A device that has left its position does not answer: nothing waits for its response any more (R378). -/
def dropTurns (s : State) : State :=
  flushLine { s with fw.line := s.fw.line.filter fun x => x.msg.isSome || match x.pos with
    | some p => s.link.members.any fun m => m.pos = p.val && decide (m.beacon.toNat % 16 < 5)
    | none => true }

/-- The schedule that the manager sent in the tick that ends. -/
def Link.sentSched (l : Link) (n : Word) : Bool :=
  l.active && [l.sent[0], l.sent[1]].any fun (x : LinkTx) => x.frame = n && fld (x.ctl.getD 7 0) 0 4 ≠ 0

/-- The link at a boundary, before the snapshot: the heartbeat and the mirror of the active manager, the schedule that was sent, the
watch over admitted routes (R342), then the taps. -/
def linkBoundary (s : State) : State :=
  if s.standalone then s
  else
    let l := s.link
    let sent := l.sentSched (s.clk.frame - 1)
    let (m, s) := if l.active && l.paired then s.freshMany 31 else (l.mirrorNo, s)
    let s : State := { s with
      link.schedOut := if sent then l.schedOut.drop 1 else l.schedOut,
      link.schedSent := (if sent then l.schedSent ++ (l.schedOut.take 1).filter fun x => x.kind ≠ 4 else l.schedSent).filter fun x =>
        decide (0 ≤ (x.f - s.clk.frame).toInt),
      link.hbSeq := if l.active && s.fw.started && !s.sup.restarting then l.hbSeq + 1 else l.hbSeq,
      link.mseq := if l.active && l.paired then l.mseq + 1 else l.mseq,
      link.refreshAt := if l.active && l.paired then (l.refreshAt + 1) % refreshLen else 0, link.mirrorNo := m }
    forIdx 128 tapBoundary (watchRoutes (if s.fw.line = [] then s else dropTurns s))

end Sys2Proof.Machine
end

