-- ==== Sys2Proof/Machine/ClockOps.lean ====
section
/-! DEFINITION. The reference, holdover and return as shared operations, and the clock settings (11). -/
namespace Sys2Proof.Machine
open Sys2Proof

/-! ### Sources (R285, R286, R324) -/

/-- The port is in domain M. -/
def Port.inM (x : Port) : Bool := x.cfg.binding = .m

/-- The port whose frames a source is multiplied from (Table 11.1). -/
def srcPort : RefSrc → Option PortId
  | .sap0 => some 0 | .aes0 => some 8 | .refclk | .ridge | .spur => none

/-- The TDIST that a receive port carries. -/
def RPort.dist (p : RPort) : Byte := if p.up then p.tdist else 255

/-- The device can take the source: SAP0 and AES0 run in domain M, RIDGE has a path to an active manager other than this device,
SPUR lane 0 is up on a manager (R285, R286, R324, R326). -/
def State.usable (s : State) (r : RefSrc) : Bool :=
  match r with
  | .refclk => true
  | .sap0 | .aes0 => (match srcPort r with | some p => s.port[p].inM && s.port[p].st = .run | none => false)
  | .ridge => !s.standalone && !s.link.active && ((s.link.ports[0]).dist ≠ 255 || (s.link.ports[1]).dist ≠ 255)
  | .spur => s.managerRole && (s.link.ports[2]).lanes[0]

/-! ### Loss and selection of a source (R287, R298, R299) -/

/-- The first source in REFORDER that has qualified. -/
def State.firstQualified (s : State) : Option RefSrc := s.clk.refOrder.find? fun r => s.clk.qual.contains r && s.usable r

/-- A holdover begins, with HOLDLIM as it stands (R300); one that runs goes on. -/
def Clk.startHold (c : Clk) : Clk :=
  if c.hold then c else { c with hold := true, holdAt := c.now, holdIn := c.holdLim, limitHit := false, lostSrc := c.actSrc }

/-- HOLDLIM is reached: a device that followed RIDGE leaves its segment, one that followed SPUR leaves the consist with its segment
(R300, R340). -/
def holdLimit (s : State) : State :=
  let t : State := { s with clk.limitHit := true }
  match s.clk.lostSrc with
  | some .ridge => leaveSegment (raise 0x8204 [] t)
  | some .spur => leaveConsist (raise 0x8204 [] t)
  | _ => s

/-- How long the holdover has lasted in ms; 0 outside one (log 50). -/
def State.holdMs (s : State) : Nat := if s.clk.hold then 1000 * (s.clk.now - s.clk.holdAt) / second else 0

/-- The holdover has lasted HOLDLIM (R300). -/
def State.limitDue (s : State) : Bool := s.clk.hold && !s.clk.limitHit && s.clk.holdIn * second ≤ 1000 * (s.clk.now - s.clk.holdAt)

/-- With HOLDLIM = 0 a device that is in holdover leaves at once (R300). -/
def leaveAtOnce (s : State) : State := if s.clk.holdIn = 0 ∧ s.limitDue then holdLimit s else s

/-- SYS and LNK freeze: the reference has no lock, REF-fed outputs are gated; HOLDLIM counts from now. A realignment that runs stays at
its factor. -/
def enterHoldover (s : State) : State :=
  let c := s.clk.startHold
  let r : Realign := match c.realign with | .none => .none | _ => .held c.factor
  leaveAtOnce (gateOuts s.refFed { s with clk := { c with sysLock := false, lnkLock := false, realign := r } })

/-- Select the first qualified source, with CLK_REFSWITCH; none while none has qualified. -/
def selectRef (old : Option RefSrc) (s : State) : State :=
  match s.firstQualified with
  | some r => raise 0x8202 [wordN (srcCode old), wordN (srcCode (some r))] { s with clk.actSrc := some r }
  | none => { s with clk.actSrc := none }

/-- The active source is lost (R287, Table 11.3). -/
def loseRef (s : State) : State :=
  match s.clk.actSrc with
  | none => s
  | some r =>
    let s := enterHoldover (raise 0x8201 [wordN (srcCode (some r))] s)
    selectRef (some r) { s with clk.qual := s.clk.qual.filter fun x => x ≠ r }

/-- A source is lost: the active one, or one that had qualified (R286, R287). -/
def loseSource (r : RefSrc) (s : State) : State :=
  if s.clk.actSrc = some r then loseRef s else { s with clk.qual := s.clk.qual.filter fun x => x ≠ r }

/-- The device may step its system counter: it is not standalone, and it is not the timing source on a local reference (R306). -/
def State.mayStep (s : State) (src : RefSrc) : Bool :=
  !s.standalone && !(s.link.active && (src = .refclk || src = .sap0 || src = .aes0))

/-- CLK_RETURN: source, e, the tick case and the counter case, the counter difference. -/
def returnEvent (src : RefSrc) (e : Int) (realign : Bool) (diff : Int) (s : State) : State :=
  let d : Quad := BitVec.ofInt 64 diff
  raise 0x8206 [wordN (srcCode (some src)), wordI e,
    wordN (boolN realign + 2 * boolN (decide (0 < diff)) + 4 * boolN (decide (diff < 0))), d.truncate 32, (d >>> 32).truncate 32] s

/-- N of Table 11.4. -/
def MRate.fadeN : MRate → Nat
  | .m44 => 220 | .m48 => 240 | .m88 => 441 | .m96 => 480

/-! ### Settings (Table 11.6) -/

/-- The sources of a REFORDER value. -/
def refList : Nat → Nat → List RefSrc
  | 0, _ => []
  | k + 1, v =>
    match v % 16 with
    | 1 => .refclk :: refList k (v / 16)
    | 2 => .ridge :: refList k (v / 16)
    | 3 => .sap0 :: refList k (v / 16)
    | 4 => .aes0 :: refList k (v / 16)
    | 5 => .spur :: refList k (v / 16)
    | _ => []

/-- A clock source of setting 0x29. -/
def outSrcOf (v : Nat) : OutSrc := if v = 0 then .off else if v = 5 then .ref else .asn (fin 4 (v - 1))

/-- Apply one checked clock setting other than MRATE. -/
def applyClk (id i : Nat) (v : Int) (s : State) : State :=
  let n := v.toNat
  match id with
  | 0x20 => { s with clk.refOrder := refList 8 n }
  | 0x22 => { s with clk.lockWin := s.clk.lockWin.set (fin 2 i).val n }
  | 0x23 => { s with clk.lockN := s.clk.lockN.set (fin 2 i).val n }
  | 0x24 => { s with clk.holdLim := n }
  | 0x25 => s.modAs (fin 4 i) fun a => { a with core := n = 1 }
  | 0x26 => s.modAs (fin 4 i) fun a => { a with nint := n }
  | 0x27 => s.modAs (fin 4 i) fun a => { a with nfrac := n }
  | 0x28 => s.modAs (fin 4 i) fun a => { a with p := n }
  | 0x29 => s.modOut (fin 8 i) fun o => { o with src := outSrcOf n }
  | 0x2A => s.modOut (fin 8 i) fun o => { o with d := n }
  | 0x2B => s.modOut (fin 8 i) fun o =>
      { o with format := if n = 0 then .lvcmos18 else if n = 1 then .lvcmos33 else .lvds }
  | 0x2C => s.modOut (fin 8 i) fun o => { o with arm := n = 1 }
  | 0x2D => if n = 0 then { s with clk.syncByFrame := false, clk.syncFrame := none } else s
  | _ => s

/-! ### Limits of the settings (R288, R290, R293, R294, R311, R331) -/

/-- The reference frequency in Hz. -/
def refHz : Family → Nat
  | .f48 => 24576000 | .f44 => 22579200

/-- f_in × (NINT + NFRAC / 2^24), over 2^24. -/
def State.vco (s : State) (n : Fin 4) : Nat := refHz s.clk.family * (s.clk.asn[n].nint * 16777216 + s.clk.asn[n].nfrac)

/-- The VCO of ASn leaves 2.4 GHz to 3.2 GHz (R290). -/
def State.vcoBad (s : State) (n : Fin 4) : Bool :=
  s.vco n < 2400000000 * 16777216 || 3200000000 * 16777216 < s.vco n

/-- Output n is too fast for its format (R293); the odd member of an LVDS pair is ignored (R294). -/
def State.outBad (s : State) (n : Fin 8) : Bool :=
  let o := s.clk.out[n]
  let top := if o.format = .lvds then 400000000 else 100000000
  if s.pairedOdd n then false
  else match o.src with
    | .off => false
    | .ref => decide (top * o.d < refHz s.clk.family)
    | .asn k => decide (top * o.d * s.clk.asn[k].p * 16777216 < s.vco k)

/-- A setting that the VCO of ASn depends on. -/
def tiesAs (n : Fin 4) (id i : Nat) : Bool := (id = 0x26 || id = 0x27) && i = n.val

/-- A setting that the frequency of output n depends on, or the format of its pair. -/
def State.tiesOut (s : State) (n : Fin 8) (id i : Nat) : Bool :=
  (0x29 ≤ id && id ≤ 0x2B && i = n.val) || (id = 0x2B && n.val % 2 = 1 && i + 1 = n.val)
    || (0x26 ≤ id && id ≤ 0x28 && s.clk.out[n].src = .asn (fin 4 i))

/-- The sources that the role may name (R288). -/
def State.refRole (s : State) (l : List RefSrc) : Bool :=
  !(s.standalone && l.contains .ridge) && !(!s.managerRole && l.contains .spur)

/-- A rate of M that can be taken: of the family of the active reference, and on the active manager no granted ring channel beyond the
frames of twice the base rate (R288, R331). -/
def State.rateOk (s : State) (r : MRate) : Bool :=
  (r.family = s.clk.family || s.clk.actSrc = none)
    && !(s.link.active && r.cycles = 8192
      && ((s.link.tx.toList.any fun x => match x with | some (k, c) => k = 0 && 1920 ≤ c | none => false)
        || s.link.grants.any fun g => 1920 ≤ g.2))

/-- A clock setting may change now: the synthesizer is disabled, the output, or both outputs of a pair that becomes or stops being LVDS,
are off (R288, R294, R311). -/
def State.clkAllows (s : State) (id i : Nat) (v : Int) : Bool :=
  if 0x25 ≤ id ∧ id ≤ 0x28 then !(s.clk.asn[fin 4 i]).enabled
  else if 0x29 ≤ id ∧ id ≤ 0x2B then
    !(s.clk.out[fin 8 i]).started
      && !(id = 0x2B && i % 2 = 0 && (v = 2 || (s.clk.out[fin 8 i]).format = .lvds) && (s.clk.out[fin 8 (i + 1)]).started)
  else if id = 0x20 then s.refRole (refList 8 v.toNat)
  else if id = 0x21 then s.rateOk (MRate.ofCode v.toNat)
  else true

/-- The state with several clock settings applied. -/
def applyClks (l : List (Nat × Nat × Int)) (s : State) : State := l.foldl (fun s x => applyClk x.1 x.2.1 x.2.2 s) s

/-- Clock settings can be applied together. -/
def State.clkFits (s : State) (l : List (Nat × Nat × Int)) : Bool :=
  let t := applyClks l s
  (l.all fun x => s.clkAllows x.1 x.2.1 x.2.2) && ((idx 4).all fun n => !(l.any fun x => tiesAs n x.1 x.2.1) || !t.vcoBad n)
    && (idx 8).all fun n => !(l.any fun x => t.tiesOut n x.1 x.2.1) || !t.outBad n

end Sys2Proof.Machine
end

