-- ==== Sys2Proof/Machine/ClockRows.lean ====
section
/-! DEFINITION. The rows of the clocks: loss, qualification, lock, clock outputs, sync, fallback and return (11). -/
namespace Sys2Proof.Machine
open Sys2Proof

/-- REFERENCE_LOST (R287, R298): the loss of the active source is holdover, and the first source that has qualified is selected; a
source that had only qualified has to qualify again. -/
def execReferenceLost (src : RefSrc) (s : State) : Out := done (loseSource src s)

/-- SOURCE_QUALIFIED: a source of REFORDER that the device can take qualifies; a device without an active source takes it (R287). -/
def execSourceQualified (src : RefSrc) (s : State) : Out :=
  done <|
    if !s.clk.refOrder.contains src ∨ s.clk.qual.contains src ∨ !s.usable src then s
    else
      let s : State := { s with clk.qual := src :: s.clk.qual }
      if s.clk.actSrc = none then selectRef s.clk.lostSrc s else s

/-- The sources before the active one in REFORDER. -/
def State.preferred (s : State) : List RefSrc :=
  match s.clk.actSrc with
  | some a => s.clk.refOrder.takeWhile fun r => r ≠ a
  | none => s.clk.refOrder

/-- PREFERRED_SOURCE_SWITCH: a loss of the old source and the choice of the earlier one (R287). -/
def execPreferredSourceSwitch (src : RefSrc) (s : State) : Out :=
  done <|
    if s.preferred.contains src ∧ s.clk.qual.contains src ∧ s.usable src then
      match s.clk.actSrc with
      | some old =>
        let s := enterHoldover (raise 0x8201 [wordN (srcCode (some old))] s)
        raise 0x8202 [wordN (srcCode (some old)), wordN (srcCode (some src))] { s with clk.actSrc := some src }
      | none => raise 0x8202 [0, wordN (srcCode (some src))] { s with clk.actSrc := some src }
    else s

/-- SYNTHESIZER_LOCK (R289, R292); after the fallback oscillator the tick runs again (R301). -/
def execSynthesizerLock (lnk : Bool) (bucket : Fin 16) (s : State) : Out :=
  done <|
    if lnk then acquire 1 bucket { s with clk.lnkLock := true }
    else
      let s := acquire 0 bucket { s with clk.sysLock := true }
      if s.clk.fallback ∧ s.boot.phase = .firmware then { s with clk.fallback := false, clk.tickRun := true } else s

/-- SYNTHESIZER_UNLOCK (R289, R298): SYS goes to holdover, LNK has no effect on the tick. -/
def execSynthesizerUnlock (lnk : Bool) (s : State) : Out :=
  done <|
    if lnk then raise 0x8203 [1] { s with clk.lnkLock := false }
    else if s.clk.sysLock then
      let l := s.clk.lnkLock
      let s := enterHoldover (raise 0x8203 [0] s)
      { s with clk.lnkLock := l }
    else s

/-- AS_LOCK (R291): the lock of an enabled synthesizer, or its loss, which gates its outputs. -/
def execAsLock (n : Fin 4) (locked : Bool) (bucket : Fin 16) (s : State) : Out :=
  done <|
    if !s.clk.asn[n].enabled then s
    else if locked then acquire (fin 6 (n.val + 2)) bucket (s.modAs n fun a => { a with lock := true })
    else if s.clk.asn[n].lock then
      gateOuts (fun o => o.usesAs n) (raise 0x8203 [wordN (n.val + 2)] (s.modAs n fun a => { a with lock := false }))
    else s

/-- CLKOUT_RESTART (R296). -/
def execClkoutRestart (s : State) : Out := done (restartOuts s)

/-- SYNC_EDGE on SYNC_IN with SYNCSRC PIN: the restart follows at the 4th reference edge; an edge while one is pending is
ignored (R297). -/
def execSyncEdge (s : State) : Out :=
  .next <| if s.clk.syncByFrame ∨ s.clk.syncPend.isSome then s else { s with clk.syncPend := some 128 }

/-- The lock bit of a synthesizer. -/
def State.locked (s : State) (y : SynId) : Bool :=
  if y = 0 then s.clk.sysLock else if y = 1 then s.clk.lnkLock else s.clk.asn[fin 4 (y.val - 2)].lock

/-- Buckets differ by two or more. -/
def far (a b : Fin 16) : Bool := a.val + 2 ≤ b.val || b.val + 2 ≤ a.val

/-- BAND_BUCKET_MOVE (R292). -/
def execBandBucketMove (y : SynId) (bucket : Fin 16) (s : State) : Out :=
  .next <| match s.clk.bucketIn[y] with
    | some b => if s.locked y ∧ far b bucket then raise 0x8208 [wordN y.val, wordN bucket.val] s else s
    | none => s

/-- HOLDOVER_LIMIT, once the holdover has lasted HOLDLIM (R300, R340). -/
def execHoldoverLimit (s : State) : Out :=
  done <|
    if s.limitDue then holdLimit s else s

/-- FALLBACK (R301). -/
def execFallback (s : State) : Out :=
  done <|
    if s.clk.fallback ∧ !s.clk.tickRun then s
    else
      let s := raise 0x8205 [] { s with clk := { s.clk.startHold with fallback := true, sysLock := false, lnkLock := false, tickRun := false } }
      leaveAtOnce (gateOuts (fun _ => true) (setQuiet 16 s))

/-- L_x (R303). -/
def longTickOf (cycles : Nat) (e : Int) : Nat := if 0 ≤ e then e.toNat else cycles - e.natAbs

/-- RETURN (R292, R302, R303, R306): SYS acquires with the bucket's band, then a slew, or a realignment whose long tick ends with the
counter's step. -/
def execRefReturn (src : RefSrc) (e diff : Int) (bucket : Fin 16) (s : State) : Out :=
  done <|
    if s.clk.actSrc = some src ∧ s.clk.hold then
      let c := s.clk
      let d : Int := if s.mayStep src then diff else 0
      let s := acquire 0 bucket s
      let base := { s.clk with hold := false, sysLock := true, lastE := e, cntPend := d + c.sysHold, lostSrc := none }
      if e.natAbs * 8 ≤ c.mrate.cycles then
        let r : Realign := match c.realign with | .held f => .fadeIn 0 f | r => r
        returnEvent src e false d { s with clk := { base with lastRealign := false, realign := r } }
      else
        { s with clk := { base with lastRealign := true, realign := .fadeOut 0 (longTickOf c.mrate.cycles e) c.factor } }
    else s

end Sys2Proof.Machine
end

