-- ==== Sys2Proof/Machine/Flash.lean ====
section
/-! DEFINITION. The boot flash on PSEL0_N: the commands of Table 16.3 as the runs that carry them (16 R431, R432). The work of a command on
the flash is done in the command's own row (DESIGN CHOICE, log 143). -/
namespace Sys2Proof.Machine
open Sys2Proof

/-- The select of a held run rises; a run that PERI_XFER left is broken unless another PERI_XFER ends it (R429, R435). -/
def Peri.release (byHost : Bool) (p : Peri) : Peri :=
  if p.held.isSome then { p with held := none, hostRun := false, broken := p.broken || (p.hostRun && !byHost) } else p

/-- A command on PSEL0_N: one run of bytes, then bytes that are only read. -/
def flashRun (l : List Byte) (reads : Nat) : PeriRun := { sel := 0, words := l.map fun b => (8, b.zeroExtend 32), reads := reads }

/-- Every address has 4 bytes: the flash does not declare 3-byte addresses only and has more than 16 MiB. -/
def Sfdp.wide (f : Sfdp) : Bool := !f.three && decide (0x1000000 < f.density)

/-- An address as it is sent, most significant byte first. -/
def Sfdp.addr (f : Sfdp) (a : Nat) : List Byte :=
  let l : List Byte := [BitVec.ofNat 8 (a / 65536), BitVec.ofNat 8 (a / 256), BitVec.ofNat 8 a]
  if Sfdp.wide f then BitVec.ofNat 8 (a / 16777216) :: l else l

/-- The SFDP header is read with a 3-byte address and 8 dummy clocks; 0xB7 where 4-byte addresses are used. -/
def Sfdp.start (f : Sfdp) : List PeriRun := flashRun [0x5A, 0, 0, 0, 0] 8 :: (if Sfdp.wide f then [flashRun [0xB7] 0] else [])

/-- Read n bytes: 0x0B with 8 dummy clocks, or 0x03 where no fast read is declared; the ROM uses 0x0B (R404). -/
def Sfdp.read (f : Sfdp) (rom : Bool) (a n : Nat) : List PeriRun :=
  if rom || f.fast then [flashRun ((0x0B : Byte) :: Sfdp.addr f a ++ [0]) n] else [flashRun ((0x03 : Byte) :: Sfdp.addr f a) n]

/-- A program or an erase: write enable before it, the status polled after it until the busy bit clears; how often is open, one poll stands
for it. -/
def Sfdp.change (f : Sfdp) (code : Byte) (a : Nat) (data : List Byte) : List PeriRun :=
  [flashRun [0x06] 0, flashRun (code :: Sfdp.addr f a ++ data) 0, flashRun [0x05] 1]

/-- The erases of sectors of a given size that begin within n bytes from an address. -/
def Sfdp.erases (f : Sfdp) (code : Byte) (size a n : Nat) : List PeriRun :=
  (List.range (n / size + 1)).flatMap fun i =>
    let b := (a + size - 1) / size * size + size * i
    if b < a + n then Sfdp.change f code b [] else []

/-- Page programs of data from an address, none across a page. -/
def Sfdp.programs (f : Sfdp) (a : Nat) (data : List Byte) : List PeriRun :=
  (List.range (data.length / f.page + 2)).flatMap fun i =>
    let lo := max a ((a / f.page + i) * f.page)
    let hi := (a / f.page + i + 1) * f.page
    let l := (data.drop (lo - a)).take (hi - lo)
    if l = [] then [] else Sfdp.change f 0x02 lo l

/-- Write data: the sectors are erased as the work reaches them, 4 KiB for directory and sealed copies, and for a slot where that is what the
flash declares. -/
def Sfdp.write (f : Sfdp) (slot : Bool) (a : Nat) (data : List Byte) : List PeriRun :=
  (if slot && !f.erase4 then Sfdp.erases f 0xD8 65536 a data.length else Sfdp.erases f 0x20 4096 a data.length) ++ Sfdp.programs f a data

/-- Work on the flash: a run held on another select is released first, and its runs follow those of the same row (R429). -/
def flashWork (more : Bool) (runs : Sfdp → List PeriRun) (s : State) : State :=
  match s.boot.flash with
  | some f =>
    let p := if s.peri.paused.isSome then s.peri else s.peri.release false
    { s with peri := { p with sent := (if more then p.sent else []) ++ runs f } }
  | none => s

end Sys2Proof.Machine
end

