-- ==== Sys2Proof/Machine/Seal.lean ====
section
/-! DEFINITION. The key deriver, and the sealed configuration: what it stores, its seal, which copy is read, which copy is written (15 R413,
R416 to R418). -/
namespace Sys2Proof.Machine
open Sys2Proof

/-! ### Keys (R413, R416) -/

/-- n bytes of a number, most significant first. -/
def bytesBE (n v : Nat) : List Byte := (List.range n).map fun i => BitVec.ofNat 8 (v / 256 ^ (n - 1 - i))

/-- The bytes of a digest or key. -/
def keyBytes (k : BitVec 384) : List Byte := bytesBE 48 k.toNat

/-- The bytes of SERIAL in a keyed message: little-endian as the words of a record (DESIGN CHOICE, log 149). -/
def serialBytes (x : Quad) : List Byte := wordBytes [x.truncate 32, (x >>> 32).truncate 32]

/-- n steps down the key chain: K_(m−n) from K_m. -/
def keyDown : Nat → BitVec 384 → BitVec 384
  | 0, k => k
  | n + 1, k => keyDown n (Config.sha384 (keyBytes k))

/-- "NV7480 K255", "CFG" and "CRED". -/
def labelTop : List Byte := [0x4E, 0x56, 0x37, 0x34, 0x38, 0x30, 0x20, 0x4B, 0x32, 0x35, 0x35]
def labelCfg : List Byte := [0x43, 0x46, 0x47]
def labelCred : List Byte := [0x43, 0x52, 0x45, 0x44]

/-- K_255. -/
def keyTop (serial : Quad) : BitVec 384 := Config.hmac (bytesBE 32 Config.root.toNat) (labelTop ++ serialBytes serial)

/-- K_n of the device. -/
def deviceKey (serial : Quad) (n : Nat) : BitVec 384 := keyDown (255 - n) (keyTop serial)

/-- K_cfg(n) and K_cred(n) from K_n; no rule uses the second. -/
def cfgKey (k : BitVec 384) : List Byte := (keyBytes (Config.hmac (keyBytes k) labelCfg)).take 32
def credKey (k : BitVec 384) : BitVec 384 := Config.hmac (keyBytes k) labelCred

/-- The deriver presents its key: the three conditions, and the clear bit has not been written (R413). -/
def Boot.released (b : Boot) : Bool := b.svn.isSome && (b.debugDisable || b.debugLock) && !b.jtag && !b.keyClear

/-- The output of the deriver (R413). -/
def Boot.deriver (b : Boot) : BitVec 384 := match b.svn with
  | some v => if b.released then deviceKey b.serial v.toNat else 0
  | none => 0

/-- The firmware reads K_SVN and writes the clear bit: the key is released once (Table 15.11; DESIGN CHOICE on the moment, log 149). -/
def takeKey (b : Boot) : Boot := { b with keyRead := b.released, key := b.deriver, keyClear := true }

/-! ### What the record carries -/

/-- A channel has been started and not stopped. -/
def Chan.started (c : Chan) : Bool := (c.st ≠ .off && c.stopWhy ≠ some .stop) || c.wasRun

/-- The present settings with the given credential (R417). -/
def capture (cred : Option (BitVec 384)) (s : State) : Sealed :=
  { xp := s.mtx.xp, cols := s.mtx.cols, rows := s.mtx.rows, rp := s.mtx.rp,
    armed := s.mtx.armed, gens := s.gen,
    ports := vmap (fun (p : Port) => (p.cfg, (p.shadow.getD p.masks), decide (p.st ≠ .off))) s.port,
    chans := vmap (fun (c : Chan) => (c.cfg, c.zSig, c.started)) s.pcd.ch,
    rails := s.pcd.rail, dieT := (s.pcd.tFoldDie, s.pcd.tStopDie), outs := s.clk.out, asn := s.clk.asn,
    refOrder := s.clk.refOrder, mrate := s.clk.mrate, lock := (s.clk.lockWin, s.clk.lockN), holdLim := s.clk.holdLim,
    sync := s.clk.syncByFrame, zones := s.fw.zone,
    policy := (s.fw.twinOn, s.fw.raise, s.fw.restartOn, s.fw.migrHours, s.fw.kaInt, s.fw.kaQuiet), cred := cred }

/-! ### The seal (Table 15.12) -/

/-- The items as plaintext; the manual gives no layout. -/
opaque Sealed.plain : Sealed → List Byte

/-- DATA before encryption, at most 28,624 bytes. -/
def Sealed.bytes (r : Sealed) : List Byte := r.plain.take 28624

/-- Bytes 0x00 to 0x1F of a record. -/
def SealedCopy.head (c : SealedCopy) : List Byte :=
  wordBytes [c.magic, c.ksvn.zeroExtend 32 ||| (c.rsv.zeroExtend 32 <<< 8), c.cseq, c.len] ++ wordBytes c.nonce.toList ++ wordBytes [c.rsv2]

/-- The additional authenticated data: bytes 0x00 to 0x1F and SERIAL. -/
def SealedCopy.aad (serial : Quad) (c : SealedCopy) : List Byte := c.head ++ serialBytes serial

/-- The tag of a copy under K_n, n its KSVN. -/
def SealedCopy.tagUnder (serial : Quad) (k : BitVec 384) (c : SealedCopy) : BitVec 128 :=
  Config.gcmTag (cfgKey k) (wordBytes c.nonce.toList) (c.aad serial) c.data.bytes

/-- An image with a given SVN and the keys up to it reads the copy: KSVN does not exceed the SVN and the tag verifies (R418). -/
def SealedCopy.opens (serial : Quad) (keyOf : Nat → BitVec 384) (svn : Byte) (c : SealedCopy) : Bool :=
  decide (c.ksvn ≤ svn) && decide (c.tag = c.tagUnder serial (keyOf c.ksvn.toNat))

/-- A record as it stands in the flash. -/
def SealedCopy.bytes (k : BitVec 384) (c : SealedCopy) : List Byte :=
  c.head ++ Config.gcmCipher (cfgKey k) (wordBytes c.nonce.toList) c.data.bytes ++ bytesBE 16 c.tag.toNat

/-- Seal items at an SVN. -/
def sealItems (serial : Quad) (k : BitVec 384) (svn : Byte) (cseq : Word) (nonce : Vector Word 3) (r : Sealed) : SealedCopy :=
  let c : SealedCopy := { magic := 0x4C414553, ksvn := svn, rsv := 0, cseq := cseq, len := wordN r.bytes.length, nonce := nonce, rsv2 := 0,
                          data := r, tag := 0 }
  { c with tag := c.tagUnder serial k }

/-! ### Choosing a copy -/

/-- The copy that an image reads: the higher CSEQ among those it can open, copy 0 on a tie (R418). -/
def readCopy (copies : Vector (Option SealedCopy) 2) (opens : SealedCopy → Bool) : Option (Fin 2) :=
  let ok (i : Fin 2) : Option Word := match copies[i] with
    | some r => if opens r then some r.cseq else none
    | none => none
  match ok 0, ok 1 with
  | some a, some b => if a.toNat < b.toNat then some 1 else some 0
  | some _, none => some 0
  | none, some _ => some 1
  | none, none => none

/-- A copy may be overwritten: no newer image sealed it, and during a trial the other slot's image does not read it. -/
def mayWrite (copies : Vector (Option SealedCopy) 2) (svn : Byte) (other : Option (SealedCopy → Bool)) (i : Fin 2) : Bool :=
  (match copies[i] with | some r => decide (r.ksvn ≤ svn) | none => true)
  && (match other with | some o => readCopy copies o ≠ some i | none => true)

/-- The copy to write: the one that is not read; with none read, the first that may be written. -/
def writeCopy (copies : Vector (Option SealedCopy) 2) (opens : SealedCopy → Bool) (svn : Byte) (other : Option (SealedCopy → Bool)) :
    Option (Fin 2) :=
  match readCopy copies opens with
  | some i =>
    let j : Fin 2 := fin 2 (1 - i.val)
    if mayWrite copies svn other j then some j else none
  | none => if mayWrite copies svn other 0 then some 0 else if mayWrite copies svn other 1 then some 1 else none

/-- Byte i of a flash slot; an erased byte reads 0xFF. -/
def byteAt (l : List Byte) (i : Nat) : Byte := l.getD i 0xFF

/-- Four bytes, little-endian. -/
def le32 (l : List Byte) (i : Nat) : Nat :=
  (byteAt l i).toNat + 256 * (byteAt l (i + 1)).toNat + 65536 * (byteAt l (i + 2)).toNat + 16777216 * (byteAt l (i + 3)).toNat

/-- The copies that an image with a given SVN opens on this device. -/
def State.opensAt (s : State) (svn : Byte) : SealedCopy → Bool := SealedCopy.opens s.boot.serial (deviceKey s.boot.serial) svn

/-- The copies that the other slot's image opens, while a trial runs (R418). -/
def State.trialOther (s : State) : Option (SealedCopy → Bool) :=
  match s.boot.trial, s.boot.running with
  | true, some (.slot .a) => some (s.opensAt (byteAt s.boot.slotB 0x0C))
  | true, some (.slot .b) => some (s.opensAt (byteAt s.boot.slotA 0x0C))
  | _, _ => none

/-- The firmware holds its key, and so may seal and read (R413). -/
def State.keyed (s : State) : Bool := s.boot.keyRead

/-- A region of the flash lies within its density (R432). -/
def State.inFlash (s : State) (off size : Nat) : Bool := match s.boot.flash with | some d => off + size ≤ d.density | none => false

/-- Where a sealed copy lies, and whether its region is there (Table 15.7). -/
def copyOff (i : Fin 2) : Nat := 0x2000 + 0x7000 * i.val
def State.hasCopy (s : State) (i : Fin 2) : Bool := s.inFlash (copyOff i) 0x7000

/-- The sealed copies; one in a missing region counts as invalid. -/
def State.copies (s : State) : Vector (Option SealedCopy) 2 := vof fun i => if s.hasCopy i then s.boot.sealed[i] else none

/-- The copies that the running image opens with the key it read. -/
def State.opens (s : State) : SealedCopy → Bool :=
  SealedCopy.opens s.boot.serial (fun n => keyDown (s.boot.image.svn.toNat - n) s.boot.key) s.boot.image.svn

/-- The copy in force: the one that the running image reads (R418). -/
def State.copy (s : State) : Option SealedCopy :=
  match readCopy s.copies s.opens with
  | some i => if s.keyed then s.copies[i] else none
  | none => none

/-- The items in force. -/
def State.record (s : State) : Option Sealed := s.copy.map (·.data)

/-- CSEQ one above the highest readable copy (R418). -/
def State.nextCseq (s : State) : Word := match s.copy with | some r => r.cseq + 1 | none => 1

/-- The copy that a write goes to (R418). -/
def State.writeTo (s : State) : Option (Fin 2) := writeCopy s.copies s.opens s.boot.image.svn s.trialOther

/-- Items as they are sealed now, with the nonce that a fresh number gives. -/
def State.sealNow (s : State) (n : Nat) (r : Sealed) : SealedCopy :=
  sealItems s.boot.serial s.boot.key s.boot.image.svn s.nextCseq (vof fun i => Config.freeWord (n + i.val)) r

/-- Write items to the copy that may be written; none when no copy may be (R418). -/
def sealWrite (r : Sealed) (s : State) : Option State :=
  if s.keyed then
    match s.writeTo with
    | some i =>
      if s.hasCopy i then
        let (n, t) := s.freshMany 3
        let c := s.sealNow n r
        some (flashWork false (fun f => Sfdp.write f false (copyOff i) (c.bytes s.boot.key)) { t with boot.sealed := t.boot.sealed.set i.val (some c) })
      else none
    | none => none
  else none

/-- The items with one renewed: the others stay as they are stored (log 30). -/
def renewed (f : Sealed → Sealed) (s : State) : Sealed := f (match s.record with | some r => r | none => capture none .reset)

/-- LEARN stores a channel's signature (R277). -/
def sealSignature (c : ChanId) (s : State) : State :=
  (sealWrite (renewed (fun r => { r with chans := vmod r.chans c fun x => (x.1, s.pcd.ch[c].zSig, x.2.2) }) s) s).getD s

end Sys2Proof.Machine
end

