-- ==== Sys2Proof/Machine/Gen.lean ====
section
/-! DEFINITION. Generators (07 R193, 14 R384). -/
namespace Sys2Proof.Machine
open Sys2Proof

/-- The amplitude of a partial at a step of its ramp (R193, R482). -/
def Partial.at (p : Partial) (j : Nat) : Nat :=
  if 64 ≤ j then p.a1 else ((128 * (p.a0 : Int) + 2 * ((p.a1 : Int) - p.a0) * (j + 1) + 64) / 128).toNat

/-- Its amplitude in the sample that is due. -/
def Partial.amp (p : Partial) : Nat := p.at p.j

/-- A change of level ramps from the amplitude of the last sample; without one the ramp that runs goes on. -/
def Partial.to (a : Nat) (p : Partial) : Partial :=
  if p.a1 = a then p else { p with a0 := if p.j = 0 then p.a0 else p.at (p.j - 1), a1 := a, j := 0 }

/-- The generator stops with its ramp. -/
def Gen.stop (g : Gen) : Gen :=
  if g.ty = .stop ∨ g.stopping then g else { g with parts := g.parts.map (Partial.to 0), stopping := true }

/-- New partials: phases and amplitudes go on from those that run, a new one starts at phase 0 from zero; one that is left over,
marked by the level −1,201, ramps to zero and is gone. -/
def mergeParts : List Partial → List (Word × Int) → List Partial
  | old, [] => old.map fun p => { p.to 0 with level := -1201 }
  | [], (f, l) :: r => { step := f, level := l, phase := 0, a0 := 0, a1 := levelAmp l, j := 0 } :: mergeParts [] r
  | p :: old, (f, l) :: r => { p.to (levelAmp l) with step := f, level := l } :: mergeParts old r

/-- Frequency and level pairs of a CHIME; level −1,201 marks an unused partial. -/
def chimeParts : List Int → List (Word × Int)
  | f :: l :: r => if l = -1201 then chimeParts r else (BitVec.ofInt 32 f, l) :: chimeParts r
  | _ => []

/-- MTX_GEN takes effect: type and parameters of R384, already checked. -/
def Gen.set (ty : Nat) (ps : List Int) (g : Gen) : Gen :=
  let p (i : Nat) : Int := ps.getD i 0
  let base := { g with stopping := false }
  if ty = 0 then g.stop
  else if ty = 1 then { base with ty := .sine, parts := mergeParts g.parts [(BitVec.ofInt 32 (p 0), p 1)] }
  else if ty = 2 then
    { base with ty := .chime, parts := mergeParts g.parts (chimeParts (ps.take 8)), attack := (p 8).toNat, decay := (p 9).toNat,
                struck := if g.ty = .chime then g.struck else none }
  else if ty = 3 then
    { base with ty := .noise, pink := p 0 = 1, lfsr := if g.ty = .noise then g.lfsr else Config.lfsrSeed g.lfsr, parts := mergeParts g.parts [(0, p 1)] }
  else if ty = 4 then
    { base with ty := .sweep, parts := mergeParts g.parts [(BitVec.ofInt 32 (p 0), p 4)], endStep := BitVec.ofInt 32 (p 1),
                durMs := (p 2).toNat, log := p 3 = 1, ran := 0 }
  else { base with ty := .pilot, parts := mergeParts g.parts [(BitVec.ofInt 32 (p 0), p 1)] }

/-- A STRIKE restarts the envelope of a CHIME. -/
def Gen.strike (g : Gen) : Gen := if g.ty = .chime then { g with struck := some 0 } else g

/-- The sample of a partial at a phase, near amplitude × sin as THD+N ≤ −120 dB and the rounding to a step leave it (log 122). -/
def toneAt (a : Nat) (phase : Word) : Int :=
  (near (Config.sine a phase) (a * sinTurns ((phase.toNat : Rat) / 4294967296)) ((a : Rat) / 1500000 + 1)).floor

/-- The sum of the partials' samples; PILOT takes its phase from the counter n. -/
def Gen.tones (g : Gen) (n : Word) : Int :=
  g.parts.foldl (fun a p => a + toneAt p.amp (if g.ty = .pilot then p.step * n else p.phase)) 0

/-- The envelope of a CHIME t ticks after its STRIKE: free between 0 and 1 during the attack, whose shape R193 does not give, then
near exp (−time / decay). -/
def Gen.envelope (g : Gen) (t hz : Nat) : Rat :=
  let free := Config.chimeEnvelope g.attack g.decay t hz
  let after : Rat := ((t * 1000 : Nat) - (g.attack * hz : Nat) : Int) / hz
  if after < 0 then max 0 (min 1 free)
  else
    let x := -after / g.decay
    if x < -16 then near free 0 (expNeg (-16)) else near free (expNeg x) roundBound

/-- The sample of a tick at hz samples a second. -/
def Gen.sample (g : Gen) (hz : Nat) (n : Word) : Word :=
  match g.ty with
  | .stop => 0
  | .noise => BitVec.ofInt 32 (sat32 (roundHalfUp (Config.noise g.pink g.lfsr * ((g.parts.map Partial.amp).headD 0 : Nat))))
  | .chime => match g.struck with
    | none => 0
    | some t => BitVec.ofInt 32 (sat32 (roundHalfUp ((g.tones n : Rat) * g.envelope t hz)))
  | _ => BitVec.ofInt 32 (sat32 (g.tones n))

/-- Ticks of a SWEEP: a duration of no whole number of ticks is rounded up (DESIGN CHOICE, log 123). -/
def Gen.total (g : Gen) (hz : Nat) : Nat := (g.durMs * hz + 999) / 1000

/-- The phase step of a SWEEP j ticks after its start (R193): from the start word to the end word, in equal steps or in equal
ratios. -/
def sweepLaw (a b : Nat) (log : Bool) (j n : Nat) : Rat :=
  let x : Rat := if n ≤ j then 1 else (j : Rat) / n
  if log ∧ a ≠ 0 ∧ b ≠ 0 then
    if a ≤ b then b * expNeg (lnNeg ((a : Rat) / b) * (1 - x)) else a * expNeg (lnNeg ((b : Rat) / a) * x)
  else a + ((b : Rat) - a) * x

/-- The phase step of a SWEEP in a tick: free from the law's value at its start to that at its end, give or take 1 (log 122). -/
def Gen.sweepStep (g : Gen) (start : Word) (hz : Nat) : Word :=
  let f (j : Nat) : Rat := sweepLaw start.toNat g.endStep.toNat g.log j (g.total hz)
  let lo := (min (f g.ran) (f (g.ran + 1))).floor - 1
  let hi := (max (f g.ran) (f (g.ran + 1))).ceil + 1
  BitVec.ofInt 32 (max lo (min hi (Config.sweepStep start g.endStep g.log g.ran (g.total hz)).toNat))

/-- The generator after the sample of a tick. -/
def Gen.next (g : Gen) (hz : Nat) : Gen :=
  if g.ty = .stop then g
  else if g.stopping ∧ g.parts.all (fun p => 63 ≤ p.j) then .stopped
  else
    let step (p : Partial) : Word := if g.ty = .sweep then g.sweepStep p.step hz else p.step
    let on := g.parts.filter fun p => p.j < 63 || p.level ≠ -1201
    { g with parts := on.map fun p => { p with phase := p.phase + step p, j := min 64 (p.j + 1) },
             lfsr := Config.lfsrNext g.lfsr, struck := g.struck.map (· + 1), ran := g.ran + 1 }

/-- A step word for the same frequency at another rate of M. -/
def reStep (w : Word) (old new : Nat) : Word := BitVec.ofNat 32 ((2 * w.toNat * old + new) / (2 * new))

/-- The frequency of a step word at an old rate lies above 0.45 of a new one. -/
def tooHigh (w : Word) (old new : Nat) : Bool := decide (45 * 4294967296 * new < 100 * w.toNat * old)

/-- A change of the rate of M; the flag says whether the generator is stopped for its frequency. -/
def Gen.rate (old new : Nat) (g : Gen) : Gen × Bool :=
  let high := g.ty ≠ .noise && ((g.parts.any fun p => p.level ≠ -1201 && tooHigh p.step old new) || (g.ty = .sweep && tooHigh g.endStep old new))
  let h := { g with parts := g.parts.map fun p => { p with step := reStep p.step old new }, endStep := reStep g.endStep old new,
                    ran := g.ran * new / old, struck := g.struck.map fun t => t * new / old }
  if g.ty = .stop then (g, false) else if high then (h.stop, true) else (h, false)

/-- The generators at a change of the rate of M, with GEN_STOP. -/
def rateGens (old new : Nat) (s : State) : State :=
  forIdx 16 (fun i s =>
    let r := (s.gen[i]).rate old new
    let s := s.modGen i fun _ => r.1
    if r.2 then raise 0x8405 [wordN i.val, 0] s else s) s

/-- SWEEP_END: the sweep has run its duration and stops. -/
def execSweepEnd (i : GenId) (s : State) : Out :=
  done <| s.modGen i fun g => if g.ty = .sweep ∧ g.total s.clk.mrate.hz ≤ g.ran then g.stop else g

end Sys2Proof.Machine
end

