-- ==== Sys2Proof/Machine/Operands.lean ====
section
/-! DEFINITION. The operand forms of an engine move: parcels, short and long moves, modifiers, sources, and the formatting of
accumulator readouts (03, 04). -/
namespace Sys2Proof.Machine
open Sys2Proof

/-! ### Moves -/

inductive MoveSrc where
  | code (c : Nat)
  | imm (v : Quad)
deriving DecidableEq, Repr

/-- A decoded move: the parcel it starts in, destination code, source, H, and a REGMOD payload (0 changes nothing). -/
structure Move where
  parcel : Nat
  dst    : Nat
  src    : MoveSrc
  swap   : Bool
  mods   : Nat
  /-- the immediate of an IMMHI move -/
  hi     : Bool
deriving DecidableEq, Repr

/-- Destination codes that Table 03.2 leaves unassigned (R76, R115). -/
def unassignedDst (d : Nat) : Bool :=
  (0x2D ≤ d && d ≤ 0x2F) || (0x4A ≤ d && d ≤ 0x4F) || d = 0x57 || (0x5E ≤ d && d ≤ 0x5F) || (0x66 ≤ d && d ≤ 0x67)
    || 0x6F ≤ d

/-- Source codes that Table 03.4 leaves unassigned (R78, R115). -/
def unassignedSrc (c : Nat) : Bool :=
  (0x29 ≤ c && c ≤ 0x2F) || (0x34 ≤ c && c ≤ 0x37) || (0x39 ≤ c && c ≤ 0x3B) || (0x41 ≤ c && c ≤ 0x43)
    || (0x46 ≤ c && c ≤ 0x47) || (0x4E ≤ c && c ≤ 0x4F) || (0x54 ≤ c && c ≤ 0x5F)

/-- A short immediate, sign-extended (R78). -/
def shortImm (c : Nat) : Quad := (BitVec.ofNat 5 c).signExtend 64

/-- A source code as a move source. -/
def srcOf (c : Nat) : MoveSrc := if 0x60 ≤ c then .imm (shortImm c) else .code c

/-- A short move (Table 04.2). -/
def shortMove (i p : Nat) : Option Move :=
  let d := (p >>> 7) % 128
  if unassignedDst d then none
  else some { parcel := i, dst := d, src := srcOf (p % 128), swap := p.testBit 14, mods := 0, hi := false }

/-- A long move from its two parcels (R112 to R114). -/
def longMove (i p q : Nat) : Option Move :=
  let m := p * 65536 + q
  let kind := (m >>> 28) % 8
  let d := (m >>> 21) % 128
  let y := m % 2097152
  if unassignedDst d then none
  else if kind = 0 then
    some { parcel := i, dst := d, src := .imm ((BitVec.ofNat 21 y).signExtend 64), swap := false, mods := 0, hi := false }
  else if kind = 1 then
    if y / 65536 ≠ 0 then none
    else some { parcel := i, dst := d, src := .imm ((BitVec.ofNat 32 (y * 65536)).signExtend 64), swap := false, mods := 0, hi := true }
  else if kind = 2 then
    if y / 524288 ≠ 0 ∨ (y >>> 14) % 8 = 1 ∨ (y >>> 17) % 4 = 3 then none
    else some { parcel := i, dst := d, src := srcOf (y % 128), swap := false, mods := y, hi := false }
  else none

/-- The moves of parcels from number i up; none when the packet is malformed (R109, R115). -/
def decodeParcels (i : Nat) : List Nat → Option (List Move)
  | [] => some []
  | [p] => if p < 32768 then (shortMove i p).map fun m => [m] else none
  | p :: q :: rest =>
    if p < 32768 then
      match shortMove i p, decodeParcels (i + 1) (q :: rest) with
      | some m, some l => some (m :: l)
      | _, _ => none
    else
      match longMove i p q, decodeParcels (i + 2) rest with
      | some m, some l => some (m :: l)
      | _, _ => none

/-- The four parcels of a packet (R108). -/
def parcels (w : Quad) : List Nat := [fld w 0 16, fld w 16 16, fld w 32 16, fld w 48 16]

/-- The moves of a packet; none when it is malformed. -/
def decodePacket (w : Quad) : Option (List Move) := decodeParcels 0 (parcels w)

/-! ### Modifiers (R111, R114) -/

/-- Lane l of a value (R72). -/
def lane (v : Quad) (l : Nat) : Half := (v >>> (16 * l)).truncate 16

/-- A value from four lanes, lane 0 first. -/
def ofLanes (a b c d : Half) : Quad := d ++ c ++ b ++ a

def lowHalf (v : Quad) : Word := v.truncate 32
def highHalf (v : Quad) : Word := (v >>> 32).truncate 32
def ofHalves (lo hi : Word) : Quad := hi ++ lo

/-- H exchanges the halves. -/
def swapHalves (v : Quad) : Quad := ofHalves (highHalf v) (lowHalf v)

/-- Lane select. -/
def laneSelect (sel : Nat) (v : Quad) : Quad :=
  if sel = 2 then ofHalves (lowHalf v) (lowHalf v)
  else if sel = 3 then ofHalves (highHalf v) (highHalf v)
  else if 4 ≤ sel then let x := lane v (sel - 4); ofLanes x x x x
  else v

/-- A signed w-bit element shifted by s places, then taken modulo 2^w. -/
def shiftElem (w : Nat) (s : Int) (x : BitVec w) : BitVec w :=
  if 0 ≤ s then x <<< s.toNat else x.sshiftRight s.natAbs

/-- The negation of an element, saturated. -/
def negElem (w : Nat) (x : BitVec w) : BitVec w :=
  if x = BitVec.intMin w then BitVec.intMax w else -x

/-- Shift and negate one element. -/
def modElem (w : Nat) (s : Int) (neg : Bool) (x : BitVec w) : BitVec w :=
  let y := shiftElem w s x
  if neg then negElem w y else y

/-- The modifiers of a REGMOD payload, in their order: lane select, shift, negate. -/
def applyMods (y : Nat) (v : Quad) : Quad :=
  let neg := y.testBit 7
  let s := (BitVec.ofNat 6 (y >>> 8)).toInt
  let v := laneSelect ((y >>> 14) % 8) v
  let mode := (y >>> 17) % 4
  if mode = 0 then modElem 64 s neg v
  else if mode = 1 then ofHalves (modElem 32 s neg (lowHalf v)) (modElem 32 s neg (highHalf v))
  else ofLanes (modElem 16 s neg (lane v 0)) (modElem 16 s neg (lane v 1)) (modElem 16 s neg (lane v 2))
    (modElem 16 s neg (lane v 3))

/-! ### Readouts (R82 to R84) -/

/-- num / 2^k rounded by RND; half to even rounds to the nearest (log 132). -/
def roundBy (rnd k : Nat) (num : Int) : Int :=
  let d : Int := 2 ^ k
  if rnd = 0 then num / d
  else if rnd = 1 then (num + d / 2) / d
  else if rnd = 2 then
    let f := num / d
    let r := num % d
    if d < 2 * r ∨ (2 * r = d ∧ f % 2 = 1) then f + 1 else f
  else if 0 ≤ num then (num + d / 2) / d else -((-num + d / 2) / d)

/-- Saturate to n signed bits. -/
def satBits (n : Nat) (x : Int) : Int := max (-(2 ^ (n - 1))) (min (2 ^ (n - 1) - 1) x)

/-- SHIFT of MAC.RC, −8 to 7, plus 8. -/
def rcShift8 (rc : Quad) : Nat := ((BitVec.ofNat 4 (fld rc 0 4)).toInt + 8).toNat

/-- A 32-bit readout of an integer. -/
def fmt32 (rc : Quad) (a : Int) : Word :=
  BitVec.ofInt 32 (satBits 32 (roundBy (fld rc 4 2) 8 (a * 2 ^ rcShift8 rc)))

/-- A 16-bit readout of an integer. -/
def fmt16 (rc : Quad) (a : Int) : Half :=
  BitVec.ofInt 16 (satBits 16 (roundBy (fld rc 4 2) 24 (a * 2 ^ rcShift8 rc)))

/-- The accumulator that lane l of the readout bank shows: those of three packets ago (R82). -/
def Regs.readAcc (r : Regs) (l : Nat) : BitVec 40 :=
  r.ac2[fin 8 (l + if bit r.macRC 7 then 4 else 0)]

/-- The exact sum of the four lanes of the readout bank. -/
def Regs.readSum (r : Regs) : Int :=
  (r.readAcc 0).toInt + (r.readAcc 1).toInt + (r.readAcc 2).toInt + (r.readAcc 3).toInt

/-! ### Sources (Table 03.4) -/

/-- A row of S_k. -/
def State.row (s : State) (r : Nat) : Word := s.mtx.snap.get r

/-- Input column i of the engine's group, from C_{k−1} (R102); an engine with no group reads zero. -/
def State.inCol (s : State) (g : Option GrpId) (i : Nat) : Word :=
  match g with
  | some g => s.mtx.colPrev[fin 256 (128 + 6 * g.val + i)]
  | none => 0

/-- A flag as a value. -/
def boolQuad (b : Bool) : Quad := if b then 1 else 0

/-- The value of an assigned source code, at the start of the packet. -/
def readCode (s : State) (x : Engine) (c : Nat) : Quad :=
  let r := x.regs
  if c < 0x20 then (if c = 0 then 0 else r.v[fin 32 c])
  else if c = 0x20 then
    let q (l : Nat) := fmt16 r.macRC (r.readAcc l).toInt
    ofLanes (q 0) (q 1) (q 2) (q 3)
  else if c = 0x21 then ofHalves (fmt32 r.macRC (r.readAcc 0).toInt) (fmt32 r.macRC (r.readAcc 1).toInt)
  else if c = 0x22 then ofHalves (fmt32 r.macRC (r.readAcc 2).toInt) (fmt32 r.macRC (r.readAcc 3).toInt)
  else if c = 0x23 then (fmt16 r.macRC r.readSum).signExtend 64
  else if c = 0x24 then (fmt32 r.macRC r.readSum).signExtend 64
  else if c < 0x29 then (r.readAcc (c - 0x25)).signExtend 64
  else if c = 0x30 then r.aluR
  else if c = 0x31 then boolQuad r.aluEq
  else if c = 0x32 then boolQuad r.aluLt
  else if c = 0x33 then boolQuad r.aluLtu
  else if c = 0x38 then r.selR
  else if c = 0x3C then r.a[r.rix.toFin].zeroExtend 64
  else if c = 0x3D then r.m[r.rix.toFin].signExtend 64
  else if c = 0x3E then r.l[r.rix.toFin].zeroExtend 64
  else if c = 0x3F then r.b[r.rix.toFin].zeroExtend 64
  else if c = 0x40 then r.lsuR
  else if c = 0x44 then r.dlyR
  else if c = 0x45 then r.ofs.zeroExtend 64
  else if c = 0x48 then r.row
  else if c = 0x49 then ofHalves (s.inCol x.grp 0) (s.inCol x.grp 1)
  else if c = 0x4A then ofHalves (s.inCol x.grp 2) (s.inCol x.grp 3)
  else if c = 0x4B then ofHalves (s.inCol x.grp 4) (s.inCol x.grp 5)
  else if c = 0x4C then x.tickLat.zeroExtend 64
  else if c = 0x4D then boolQuad x.bankLat
  else if c = 0x50 then r.sp.zeroExtend 64
  else if c = 0x51 then r.spl.zeroExtend 64
  else if c = 0x52 then x.flags.zeroExtend 64
  else if c = 0x53 then BitVec.ofNat 64 x.issued
  else 0

/-- The value that a move delivers to its destination; an unassigned source reads zero before any modifier (R115). -/
def moveVal (s : State) (x : Engine) (m : Move) : Quad :=
  let v := match m.src with
    | .imm v => v
    | .code c => readCode s x c
  let v := if m.swap then swapHalves v else v
  if m.mods = 0 then v else applyMods m.mods v

/-- The move reads an unassigned source code. -/
def Move.badSrc (m : Move) : Bool :=
  match m.src with
  | .code c => unassignedSrc c
  | .imm _ => false

/-! ### I space by entry (Table 05.2) -/

/-- What the firmware reads at an entry of an engine's I space, 0x000 to 0xFFF; an unassigned entry reads zero (R130). -/
def State.ioEntry (s : State) (e : EngId) (n : Nat) : Word :=
  let x := s.eng[e]
  if n < 0x200 then s.row n
  else if n < 0x206 then s.inCol x.grp (n - 0x200)
  else if 0x210 ≤ n ∧ n < 0x21C then x.out[fin 12 (n - 0x210)]
  else if 0x220 ≤ n ∧ n < 0x228 then
    let v := x.events.getD ((n - 0x220) / 2) 0
    if n % 2 = 0 then lowHalf v else highHalf v
  else if n = 0x228 then x.tickLat
  else if n = 0x229 then wordN (boolN x.bankLat)
  else if n = 0x22A then wordN x.regs.osel.val
  else 0

end Sys2Proof.Machine
end

