-- ==== Sys2Proof/Machine/EccOps.lean ====
section
/-! DEFINITION. Reads and writes of the engine memories and the delay memory, with error correction and its counters (05). -/
namespace Sys2Proof.Machine
open Sys2Proof

/-- What a read of a word with check bits leaves (R145, R146, R149). -/
structure EccRead where
  ecc    : EccState
  hold   : Option Nat
  corr   : Word
  ok     : Bool
  /-- the word is corrected twice within 8 s -/
  second : Bool

def EccState.find (e : EccState) (a : Nat) : Option Ecc := (e.bad.find? fun x => x.1 = a).map (·.2)

/-- The word was corrected at most 8 s ago and written back (R149). -/
def EccState.recent (e : EccState) (now a : Nat) : Bool :=
  e.once.any fun x => x.1 = a && decide (now ≤ x.2 + 8 * second)

/-- A correction of word a was written back or scrubbed now. -/
def EccState.clear (e : EccState) (now a : Nat) : EccState :=
  { bad := e.bad.filter fun x => x.1 ≠ a, once := (a, now) :: e.once.filter fun x => x.1 ≠ a }

/-- Word a was written: its check bits are right again. -/
def EccState.wrote (e : EccState) (a : Nat) : EccState := { e with bad := e.bad.filter fun x => x.1 ≠ a }

/-- The n words from a on were written. -/
def EccState.wroteMany (e : EccState) (a n : Nat) : EccState := { e with bad := e.bad.filter fun x => x.1 < a || a + n ≤ x.1 }

/-- Every word was written; corrections of the last 8 s still count (R149). -/
def EccState.reload (e : EccState) : EccState := { e with bad := [] }

/-- A read through a holder: a pending word is corrected again without a count; a free holder takes the word; an occupied one
does not (R146). -/
def eccRead (now : Nat) (e : EccState) (hold : Option Nat) (corr : Word) (a : Nat) : EccRead :=
  match e.find a with
  | none => { ecc := e, hold := hold, corr := corr, ok := true, second := false }
  | some .double => { ecc := e, hold := hold, corr := corr, ok := false, second := false }
  | some .single =>
    match hold with
    | none => { ecc := e, hold := some a, corr := satInc corr, ok := true, second := e.recent now a }
    | some b =>
      if a = b then { ecc := e, hold := hold, corr := corr, ok := true, second := false }
      else { ecc := e, hold := hold, corr := satInc corr, ok := true, second := false }

/-- MEM_ERR: kind, memory, engine or tile; address; owner tag. An engine memory has no owner tag: that word is free. -/
def memErr (kind mem unit a : Nat) (tag : Option (BitVec 5)) (s : State) : State :=
  let (n, s) := s.fresh
  raise 0x8109 [wordN (kind + 16 * mem + 256 * unit), wordN a, match tag with | some t => t.zeroExtend 32 | none => Config.freeWord n] s

/-- Parameter word o of array b in the addresses of dEcc. -/
def parKey (bank : Bool) (o : Nat) : Nat := 65536 + 16384 * boolN bank + o

/-- The memory code of an address of dEcc: 1 D, 2 parameter; and the address in that memory. -/
def dKind (a : Nat) : Nat × Nat := if a < 65536 then (1, a) else (2, (a - 65536) % 16384)

/-- A bit of an engine memory counts as failed: the program leaves the engine where the migration policy allows, and the engine is
tested once it is free (R149). -/
def failedEngine (e : EngId) (mem a : Nat) (s : State) : State :=
  let x := s.eng[e]
  let stays := x.st = .candidate ∨ (x.st = .spare ∧ x.grp.isSome) ∨ (x.st = .live ∧ !s.fw.restartOn)
  memErr 0 mem e.val a none <|
    if stays then s.modEng e fun x => { x with testDue := true }
    else { s with fw.sched := s.fw.sched ++ [{ due := .next, change := .engTest e }] }

/-- The owner tag of a block. -/
def TileMem.tag (t : TileMem) (block : Nat) : BitVec 5 :=
  ((t.owner.find? fun x => x.1 = block).map (·.2)).getD 0x1F

/-- A bit of a delay memory counts as failed: its block is excluded (R149). -/
def failedBlock (t : TileId) (a : Nat) (s : State) : State :=
  let b := a / 2048
  memErr 0 3 t.val a (some (s.tile[t].tag b))
    (s.modTile t fun m => { m with excluded := if m.excluded.contains b then m.excluded else b :: m.excluded })

/-! ### Engine memories -/

/-- Fetch a packet; none when the word is uncorrectable. -/
def fetch (e : EngId) (a : Nat) (s : State) : Option Quad × State :=
  let x := s.eng[e]
  let r := eccRead s.clk.now x.pEcc x.pHold x.pCorr a
  let t := s.modEng e fun x => { x with pEcc := r.ecc, pHold := r.hold, pCorr := r.corr }
  let t := cntSat (cntId 9 e.val 0) x.pCorr r.corr t
  let t := if r.second then failedEngine e 0 a t else t
  (if r.ok then some (x.p.get a) else none, t)

/-- The D address lies in the parameter window (R129). -/
def Engine.inWindow (x : Engine) (a : Nat) : Bool := x.prog.pwbase ≤ a && a < x.prog.pwbase + x.prog.pwsize

/-- Where a D address is held: the key of dEcc. -/
def Engine.dKey (x : Engine) (a : Nat) : Nat :=
  if x.inWindow a then parKey x.bank (a - x.prog.pwbase) else a

/-- The parameter array that IO.BANK names. -/
def Engine.liveArray (x : Engine) : Mem 16 := if x.bank then x.par1 else x.par0
def Engine.shadowArray (x : Engine) : Mem 16 := if x.bank then x.par0 else x.par1

/-- The word at a D address, the window showing the live array. -/
def Engine.dWord (x : Engine) (a : Nat) : Half :=
  if x.inWindow a then x.liveArray.get (a - x.prog.pwbase) else x.d.get a

/-- Read one D word; the flag says whether it could be read. -/
def dRead (e : EngId) (a : Nat) (s : State) : Half × Bool × State :=
  let x := s.eng[e]
  let k := x.dKey a
  let r := eccRead s.clk.now x.dEcc x.dHold x.dCorr k
  let t := s.modEng e fun x => { x with dEcc := r.ecc, dHold := r.hold, dCorr := r.corr }
  let t := cntSat (cntId 10 e.val 0) x.dCorr r.corr t
  let t := if r.second then failedEngine e (dKind k).1 (dKind k).2 t else t
  (x.dWord a, r.ok, t)

/-- Read n D words from a; the flag says whether all could be read. -/
def dReads (e : EngId) (a : Nat) : Nat → State → List Half × Bool × State
  | 0, s => ([], true, s)
  | n + 1, s =>
    let (v, ok, s) := dRead e a s
    let (l, oks, s) := dReads e (a + 1) n s
    (v :: l, ok && oks, s)

/-- Store one D word; a store into the window is discarded (R96), and a write cancels a pending write-back. -/
def Engine.dStore (x : Engine) (a : Nat) (v : Half) : Engine :=
  if x.inWindow a then x
  else { x with d := x.d.set a v, dEcc := x.dEcc.wrote a, dHold := if x.dHold = some a then none else x.dHold }

def Engine.dStores (x : Engine) (a : Nat) : List Half → Engine
  | [] => x
  | v :: l => (x.dStore a v).dStores (a + 1) l

/-! ### Delay memory -/

/-- The bank of a word (R131). -/
def bankOf (a : Nat) : Fin 16 := fin 16 (a / 4)

/-- Read one delay word. -/
def delayRead (t : TileId) (a : Nat) (s : State) : Half × Bool × State :=
  let m := s.tile[t]
  let b := bankOf a
  let r := eccRead s.clk.now m.ecc m.wb[b] m.corr a
  let u := s.modTile t fun m => { m with ecc := r.ecc, wb := m.wb.set b.val r.hold, corr := r.corr }
  let u := cntSat (cntId 11 t.val 0) m.corr r.corr u
  let u := if r.second then failedBlock t a u else u
  (m.mem.get a, r.ok, u)

def delayReads (t : TileId) (a : Nat) : Nat → State → List Half × Bool × State
  | 0, s => ([], true, s)
  | n + 1, s =>
    let (v, ok, s) := delayRead t a s
    let (l, oks, s) := delayReads t (a + 1) n s
    (v :: l, ok && oks, s)

/-- Write one delay word. -/
def TileMem.store (m : TileMem) (a : Nat) (v : Half) : TileMem :=
  let b := bankOf a
  { m with mem := m.mem.set a v, ecc := m.ecc.wrote a, wb := m.wb.set b.val (if m.wb[b] = some a then none else m.wb[b]) }

def TileMem.stores (m : TileMem) (a : Nat) : List Half → TileMem
  | [] => m
  | v :: l => (m.store a v).stores (a + 1) l

/-- Clear every word of a block (R142). -/
def TileMem.clearBlock (m : TileMem) (b : Nat) : TileMem :=
  let hit (a : Nat) : Bool := a / 2048 = b
  { m with mem := m.mem.clear (b * 2048) 2048, ecc := { m.ecc with bad := m.ecc.bad.filter fun x => !hit x.1 },
           wb := vmap (fun o => match o with | some a => if hit a then none else some a | none => none) m.wb }

/-- Give a block an owner tag; 0x1F is not listed. -/
def TileMem.setTag (m : TileMem) (b : Nat) (tag : BitVec 5) : TileMem :=
  let rest := m.owner.filter fun x => x.1 ≠ b
  { m with owner := if tag = 0x1F then rest else (b, tag) :: rest }

def TileMem.setTags (m : TileMem) (bs : List Nat) (tag : BitVec 5) : TileMem := bs.foldl (fun m b => m.setTag b tag) m

/-- Free blocks: retag them 0x1F and clear them (R143). -/
def TileMem.freeBlocks (m : TileMem) (bs : List Nat) : TileMem := bs.foldl (fun m b => (m.setTag b 0x1F).clearBlock b) m

/-- The blocks with a tag. -/
def TileMem.tagged (m : TileMem) (tag : BitVec 5) : List Nat := (m.owner.filter fun x => x.2 = tag).map (·.1)

end Sys2Proof.Machine
end

