-- ==== Sys2Proof/Machine/Units.lean ====
section
/-! DEFINITION. The function units of a sample engine that only compute: MAC, ALU, SEL and address generation (03). -/
namespace Sys2Proof.Machine
open Sys2Proof

/-! ### MAC (R79 to R81) -/

/-- The trigger stores its value in MAC.X (Table 03.5). -/
def macStores (d : Nat) : Bool := 0x23 ≤ d && d ≤ 0x2A

/-- Lane l's Y operand, broadcast when the trigger says so. -/
def macY (r : Regs) (d l : Nat) : Int :=
  let b := d = 0x26 ∨ d = 0x27 ∨ d = 0x28 ∨ d = 0x2A
  (lane r.macY (if b then fld r.macRC 8 2 else l)).toInt

/-- The exact new value of lane l's accumulator a. -/
def macLane (r : Regs) (d l : Nat) (v : Quad) (a : Int) : Int :=
  let p := 2 * (lane r.macX l).toInt * macY r d l
  if d = 0x23 ∨ d = 0x26 then p
  else if d = 0x24 ∨ d = 0x27 then a + p
  else if d = 0x25 ∨ d = 0x28 then a - p
  else if d = 0x29 ∨ d = 0x2A then a + ((lane r.macX l).toNat : Int) * macY r d l / 32768
  else if d = 0x2B then 0
  else (lane v l).toInt * 65536

/-- Keep the low 40 bits; a value outside the range sets OV40 of the lane, but for MUL, CLR and LDA (R80). -/
def macStep (d : Nat) (v : Quad) (l : Nat) (x : Engine) : Engine :=
  let i : Fin 8 := fin 8 (l + if bit x.regs.macRC 6 then 4 else 0)
  let e := macLane x.regs d l v (x.regs.ac[i]).toInt
  let y : Engine := { x with regs.ac := x.regs.ac.set i.val (BitVec.ofInt 40 e) i.isLt }
  if e < -549755813888 ∨ 549755813887 < e then y.flagOv l else y

/-- A MAC trigger. -/
def macTrigger (d : Nat) (v : Quad) (x : Engine) : Engine :=
  macStep d v 3 (macStep d v 2 (macStep d v 1 (macStep d v 0 x)))

/-! ### ALU (R85 to R87) -/

/-- Low halves added as 32-bit values, saturated and sign-extended. -/
def alu32 (x : Int) : Quad := (BitVec.ofInt 32 (sat32 x)).signExtend 64

/-- ALU.SH: by the signed value of bits 6:0 of B. -/
def aluShift (a b : Quad) : Quad :=
  let s := (BitVec.ofNat 7 (fld b 0 7)).toInt
  if 0 ≤ s then a <<< s.toNat else a.sshiftRight s.natAbs

/-- The low w bits of a value. -/
def lowBits (w : Nat) (v : Quad) : Quad := BitVec.ofNat 64 (v.toNat % 2 ^ w)

/-- ALU.BFX. -/
def aluBfx (a b : Quad) : Quad :=
  let p := fld b 0 6
  let w := fld b 8 6 + 1
  let f := lowBits w (a >>> p)
  if bit b 15 && bit f (w - 1) then f ||| ((BitVec.allOnes 64) <<< w) else f

/-- ALU.BFI. -/
def aluBfi (a b : Quad) (c : Word) : Quad :=
  let p := fld c 0 6
  let w := fld c 8 6 + 1
  let m : Quad := (BitVec.ofNat 64 (2 ^ w - 1)) <<< p
  (a &&& ~~~m) ||| ((lowBits w b) <<< p)

/-- ALU.CLZ: leading zeros, from bit n−1 down. -/
def leadZeros (a : Quad) : Nat → Nat
  | 0 => 0
  | n + 1 => if bit a n then 0 else leadZeros a n + 1

/-- Byte i of A and B together, by a selector nibble. -/
def permByte (a b : Quad) (n : Nat) : Byte :=
  if n < 8 then (a >>> (8 * n)).truncate 8 else (b >>> (8 * (n - 8))).truncate 8

/-- ALU.PERM. -/
def aluPerm (a b : Quad) (c : Word) : Quad :=
  let q (i : Nat) : Byte := permByte a b (fld c (4 * i) 4)
  q 7 ++ q 6 ++ q 5 ++ q 4 ++ q 3 ++ q 2 ++ q 1 ++ q 0

/-- The result of ALU code 0x32 + k for operand A (Table 03.8). -/
def aluOp (k : Nat) (a b : Quad) (c : Word) : Quad :=
  if k = 0 then a + b
  else if k = 1 then a - b
  else if k = 2 then alu32 ((lowHalf a).toInt + (lowHalf b).toInt)
  else if k = 3 then alu32 ((lowHalf a).toInt - (lowHalf b).toInt)
  else if k = 4 then a &&& b
  else if k = 5 then a ||| b
  else if k = 6 then a ^^^ b
  else if k = 7 then aluShift a b
  else if k = 8 then (if a.slt b then a else b)
  else if k = 9 then (if a.slt b then b else a)
  else if k = 10 then aluBfx a b
  else if k = 11 then aluBfi a b c
  else if k = 12 then BitVec.ofNat 64 (leadZeros a 64)
  else aluPerm a b c

/-- An ALU trigger: ALU.R, and the compare results on SUB (R86). -/
def aluTrigger (d : Nat) (a : Quad) (r : Regs) : Regs :=
  let k := d - 0x32
  let t : Regs := { r with aluR := aluOp k a r.aluB r.aluC }
  if k = 1 then { t with aluEq := a == r.aluB, aluLt := a.slt r.aluB, aluLtu := a.ult r.aluB } else t

/-! ### SEL (R88) -/

def selTrigger (d : Nat) (v : Quad) (r : Regs) : Regs :=
  if d = 0x42 then { r with selR := if v ≠ 0 then r.selA else r.selB }
  else
    let q (l : Nat) : Half := if lane v l ≠ 0 then lane r.selA l else lane r.selB l
    { r with selR := ofLanes (q 0) (q 1) (q 2) (q 3) }

/-! ### Address generation (R89, R90) -/

/-- A[k] advanced by d. -/
def aguNext (a l b : BitVec 24) (d : Int) : BitVec 24 :=
  if l = 0 then BitVec.ofInt 24 ((a.toNat : Int) + d)
  else BitVec.ofInt 24 ((b.toNat : Int) + ((a.toNat : Int) + d - (b.toNat : Int)) % (l.toNat : Int))

/-- The post-modification of A[k] by M[j], from the registers at the start of the packet. -/
def postMod (r0 : Regs) (k j : Fin 8) : BitVec 24 := aguNext r0.a[k] r0.l[k] r0.b[k] (r0.m[j]).toInt

/-! ### Register and operand writes (Table 03.2) -/

/-- The index of an AGU register move. -/
def aguK (v : Quad) : Fin 8 := fin 8 (fld v 0 3)

/-- Write a register or operand port; r0 holds the registers at the start of the packet. A trigger writes MAC.X if it stores. -/
def writePort (r0 : Regs) (d : Nat) (v : Quad) (r : Regs) : Regs :=
  let k := aguK v
  let x : BitVec 24 := BitVec.ofNat 24 (fld v 3 24)
  if d < 0x20 then (if d = 0 then r else { r with v := r.v.set (fin 32 d).val v })
  else if d = 0x20 ∨ macStores d then { r with macX := v }
  else if d = 0x21 then { r with macY := v }
  else if d = 0x22 then { r with macRC := v &&& 0x3FF }
  else if d = 0x30 then { r with aluB := v }
  else if d = 0x31 then { r with aluC := lowHalf v }
  else if d = 0x40 then { r with selA := v }
  else if d = 0x41 then { r with selB := v }
  else if d = 0x44 then { r with a := r.a.set k.val x }
  else if d = 0x45 then { r with m := r.m.set k.val x }
  else if d = 0x46 then { r with l := r.l.set k.val x }
  else if d = 0x47 then { r with b := r.b.set k.val x }
  else if d = 0x48 then { r with a := r.a.set k.val (aguNext r0.a[k] r0.l[k] r0.b[k] x.toInt) }
  else if d = 0x49 then { r with rix := BitVec.ofNat 3 (fld v 0 3) }
  else if d = 0x50 then { r with sd := v }
  else if d = 0x58 then { r with wd := v }
  else if d = 0x59 then { r with ofs := BitVec.ofNat 22 (fld v 0 22) }
  else if d = 0x5A then { r with step := BitVec.ofNat 22 (fld v 0 22) }
  else if d = 0x62 then { r with osel := fin 12 (fld v 0 4) }
  else if d = 0x6D then { r with sp := v.truncate 16 }
  else if d = 0x6E then { r with spl := v.truncate 16 }
  else r

/-- The places that a move writes, as keys: a port's code, or 256 + k for A[k], 264 + k for M[k], 272 + k for L[k], 280 + k for
B[k] (R41); V0 is no place. -/
def writeKeys (d : Nat) (v : Quad) : List Nat :=
  let k := (aguK v).val
  if d = 0 then []
  else if macStores d then [0x20]
  else if d = 0x44 ∨ d = 0x48 then [256 + k]
  else if d = 0x45 then [264 + k]
  else if d = 0x46 then [272 + k]
  else if d = 0x47 then [280 + k]
  else if d < 0x23 ∨ d = 0x30 ∨ d = 0x31 ∨ d = 0x40 ∨ d = 0x41 ∨ d = 0x49 ∨ d = 0x50 ∨ d = 0x58 ∨ d = 0x59 ∨ d = 0x5A ∨ d = 0x62
    ∨ d = 0x6D ∨ d = 0x6E then [d]
  else []

/-- The unit that a trigger port starts (Table 03.3). -/
def unitOf (d : Nat) : Option Nat :=
  if 0x23 ≤ d ∧ d ≤ 0x2C then some 0
  else if 0x32 ≤ d ∧ d ≤ 0x3F then some 1
  else if d = 0x42 ∨ d = 0x43 then some 2
  else if 0x51 ≤ d ∧ d ≤ 0x53 then some 3
  else if 0x54 ≤ d ∧ d ≤ 0x56 then some 4
  else if 0x5B ≤ d ∧ d ≤ 0x5D then some 5
  else if d = 0x60 ∨ d = 0x61 then some 6
  else if 0x63 ≤ d ∧ d ≤ 0x65 then some 7
  else if 0x68 ≤ d ∧ d ≤ 0x6C then some 8
  else none

end Sys2Proof.Machine
end

