-- ==== Sys2Proof/Machine/Packet.lean ====
section
/-! DEFINITION. One packet of a sample engine: sources, the collision rules, the units that reach memory, the snapshot and
control; and the rows of an engine within a tick (02, 03, 05). -/
namespace Sys2Proof.Machine
open Sys2Proof

/-! ### Delay lines (R97 to R100, R134 to R139) -/

/-- Words of an entry; WCODE 0b11 has none. -/
def Desc.width (d : Desc) : Nat :=
  if d.wcode = 0 then 1 else if d.wcode = 1 then 2 else if d.wcode = 2 then 4 else 0

/-- The line has entries. -/
def Desc.live (d : Desc) : Bool := d.n ≠ 0 && d.wcode ≠ 3

/-- The write index in force (R139). -/
def Desc.wNow (d : Desc) : Nat := if d.live then d.w.toNat % d.n.toNat else 0

/-- W advanced by one entry. -/
def Desc.adv (d : Desc) : Desc :=
  { d with w := BitVec.ofNat 23 (if d.live then (d.wNow + 1) % d.n.toNat else 0) }

/-- The first word of entry i. -/
def Desc.addr (d : Desc) (i : Nat) : Nat := d.base4.toNat * 4 + i * d.width

/-- The entry that a TAP at an offset reads. -/
def Desc.tapEntry (d : Desc) (ofs : Nat) : Nat :=
  if d.live then (((d.wNow : Int) - 1 - (ofs : Int)) % (d.n.toNat : Int)).toNat else 0

/-- The line reaches a block. -/
def Desc.reaches (d : Desc) (b : Nat) : Bool :=
  d.live && d.base4.toNat * 4 / 2048 ≤ b && b ≤ (d.addr d.n.toNat - 1) / 2048

/-- A line of the engine reaches a block. -/
def Engine.reaches (x : Engine) (b : Nat) : Bool := x.desc.toList.any fun d => d.reaches b

/-- The position of an engine in its tile. -/
def posOf (e : EngId) : Nat := e.val % 5

/-- The engine is the outgoing engine of a crossfade of its group. -/
def State.outgoingOf (s : State) (e : EngId) : Option (GrpId × Crossfade) :=
  match s.eng[e].grp with
  | some g => match s.grp[g].xf with
    | some f => if f.outgoing = some e then some (g, f) else none
    | none => none
  | none => none

/-- The access of R134 is within the engine's owned regions. -/
def State.owns (s : State) (e : EngId) (d : Desc) (tap : Bool) (block : Nat) : Bool :=
  let x := s.eng[e]
  let tag := s.tile[tileOf e].tag block
  let groupTag := match x.grp with | some g => decide (tag.toNat = g.val) | none => false
  match x.st with
  | .live => (match s.outgoingOf e with | some (_, f) => f.blocks.contains block | none => groupTag)
  | .candidate => decide (tag.toNat = 16 + posOf e) || (tap && d.inherit && groupTag)
  | .test => decide (tag.toNat = 16 + posOf e)
  | _ => false

/-- A WRITE of an outgoing engine to a block that the new owner reaches is discarded with no flag (R169). -/
def State.fadedWrite (s : State) (e : EngId) (block : Nat) : Bool :=
  match s.outgoingOf e with
  | some (g, _) => match s.grp[g].owner with
    | some o => tileOf o = tileOf e && s.eng[o].reaches block
    | none => false
  | none => false

/-- The access is in range (R99, R134, R139). -/
def State.inRange (s : State) (e : EngId) (d : Desc) (tap : Bool) (i : Nat) : Bool :=
  d.live && d.addr i + d.width ≤ 4194304 && s.owns e d tap (d.addr i / 2048)

/-- A value from w words, lowest first, sign-extended for widths 1 and 2 (R98). -/
def entryVal (w : Nat) (l : List Half) : Quad :=
  if w = 1 then (l.getD 0 0).signExtend 64
  else if w = 2 then ((l.getD 1 0) ++ (l.getD 0 0)).signExtend 64
  else ofLanes (l.getD 0 0) (l.getD 1 0) (l.getD 2 0) (l.getD 3 0)

/-- The words of an entry of width w. -/
def entryWords (w : Nat) (v : Quad) : List Half := [lane v 0, lane v 1, lane v 2, lane v 3].take w

/-- Queue a result (R40). -/
def Engine.fly (x : Engine) (u : ResUnit) (left : Nat) (v : Quad) : Engine :=
  { x with flight := x.flight ++ [{ unit := u, left := left, val := v }] }

/-- The read of a TAP: the entry kept in this tick for a CANDIDATE's inherited line, or the delay memory; zero where R99 or the
check bits forbid it. -/
def tapRead (e : EngId) (n : Fin 64) (i : Nat) (s : State) : Quad × State :=
  let x := s.eng[e]
  let d := x.desc[n]
  let kept := x.kept.find? fun k => k.1 = n.val && k.2.1 = i
  match x.st = .candidate && d.inherit && d.live, kept with
  | true, some k => (entryVal d.width (entryWords d.width k.2.2), s)
  | _, _ =>
    if s.inRange e d true i then
      let (l, ok, s) := delayReads (tileOf e) (d.addr i) d.width s
      if ok then (entryVal d.width l, s) else (0, s.modEng e fun x => x.flag flEccUncorr)
    else (0, s.modEng e fun x => x.flag flDlyRange)

/-- The write of a WRITE. -/
def delayWrite (e : EngId) (n : Fin 64) (i : Nat) (v : Quad) (s : State) : State :=
  let x := s.eng[e]
  let d := x.desc[n]
  if x.st = .candidate ∧ d.inherit ∧ d.live then
    s.modEng e fun x => { x with kept := (n.val, i, v) :: x.kept.filter fun k => k.1 ≠ n.val }
  else if s.inRange e d false i then
    if s.fadedWrite e (d.addr i / 2048) then s
    else s.modTile (tileOf e) fun m => m.stores (d.addr i) (entryWords d.width v)
  else s.modEng e fun x => x.flag flDlyRange

/-- The bank that a DLY trigger requests (R57): that of the entry's word, or of entry 0 of a line without entries. -/
def dlyBank (x : Engine) (dst : Nat) (v : Quad) : Option (Fin 16) :=
  let d := x.desc[fin 64 (fld v 0 6)]
  if dst = 0x5B then some (bankOf (d.addr (d.tapEntry x.regs.ofs.toNat)))
  else if dst = 0x5C then some (bankOf (d.addr d.wNow))
  else none

/-- A DLY trigger, its operands as they stand after the packet's writes; `ofsKept`: an explicit move wrote OFS (R43). -/
def dlyTrigger (e : EngId) (dst : Nat) (v : Quad) (ofsKept : Bool) (s : State) : State :=
  let n : Fin 64 := fin 64 (fld v 0 6)
  let x := s.eng[e]
  let d := x.desc[n]
  if dst = 0x5B then
    let (r, s) := tapRead e n (d.tapEntry x.regs.ofs.toNat) s
    s.modEng e fun x =>
      let x := x.fly .dly 3 r
      if ofsKept then x.flag flCollide
      else { x with regs.ofs := x.regs.ofs + x.regs.step }
  else
    let s := if dst = 0x5C then delayWrite e n d.wNow x.regs.wd s else s
    s.modEng e fun x => { x with desc := x.desc.set n.val (x.desc[n]).adv }

/-! ### Load and store (R93 to R96) -/

/-- Words of a load or store trigger. -/
def lsuWords (dst : Nat) : Nat :=
  if dst = 0x51 ∨ dst = 0x54 then 1 else if dst = 0x52 ∨ dst = 0x55 then 2 else 4

/-- The aligned access address. -/
def lsuAddr (r0 : Regs) (k : Fin 8) (w : Nat) : Nat := (r0.a[k].toNat % 65536) / w * w

/-- Register and modifier index of a descriptor. -/
def lsuK (v : Quad) : Fin 8 := fin 8 (fld v 0 3)
def lsuJ (v : Quad) : Fin 8 := fin 8 (fld v 3 3)

/-- A load: it reads before the packet's store and delivers two packets later. -/
def loadTrigger (e : EngId) (r0 : Regs) (dst : Nat) (v : Quad) (s : State) : State :=
  let k := lsuK v
  let w := lsuWords dst
  let a := lsuAddr r0 k w
  let (l, ok, s) := dReads e a w s
  s.modEng e fun x =>
    let x := x.flagIf (decide ((r0.a[k]).toNat % w ≠ 0)) flMisalign
    let x := x.flagIf (!ok) flEccUncorr
    x.fly .lsu 1 (if ok then entryVal w l else 0)

/-- A store; `call`: a CALL of the packet takes the store access and the store is discarded (R44). The address of a discarded store,
by a CALL or in the parameter window (R96), still sets MISALIGN (the model's choice, log 132). -/
def storeTrigger (r0 : Regs) (dst : Nat) (v : Quad) (call : Bool) (x : Engine) : Engine :=
  let k := lsuK v
  let w := lsuWords dst
  let x := x.flagIf (decide ((r0.a[k]).toNat % w ≠ 0)) flMisalign
  if call then x.flag flCollide else x.dStores (lsuAddr r0 k w) (entryWords w x.regs.sd)

/-- The post-modification of an address generator; an explicit write of A[k], or the other generator's, stands (R91). -/
def postModify (r0 : Regs) (v : Quad) (explicit other : List Nat) (x : Engine) : Engine :=
  let k := lsuK v
  if explicit.contains (256 + k.val) then x.flag flCollide
  else
    let x := x.flagIf (other.contains k.val) flCollide
    { x with regs.a := x.regs.a.set k.val (postMod r0 k (lsuJ v)) }

/-! ### IO (R101 to R105) -/

/-- A row read. -/
def rowTrigger (dst : Nat) (v : Quad) (s : State) : Quad :=
  if dst = 0x60 then (s.row (fld v 0 9)).signExtend 64 else ofHalves (s.row (fld v 0 9)) (s.row (fld v 9 9))

/-- An event word (R104): a LIVE engine's first four are delivered; a CANDIDATE's are counted for its audition (R105). -/
def postEvent (e : EngId) (v : Quad) (s : State) : State :=
  let x := s.eng[e]
  let t := if x.events.length < 4 then s.modEng e fun x => { x with events := x.events ++ [v] } else s
  match x.st, x.grp with
  | .live, some g =>
    if x.events.length < 4 then raise 0x8502 [wordN g.val, x.tickLat, lowHalf v, highHalf v] t
    else
      let old := s.grp[g].evLost
      cntSat (cntId 16 g.val 0) old (satInc old) (t.modGrp g fun y => { y with evLost := satInc old })
  | .candidate, some g =>
    t.modGrp g fun y => { y with aud := y.aud.map fun a => { a with events := a.events + 1 } }
  | _, _ => t

/-- IO.OUT and IO.OUT2 (R103); `kept`: an explicit move wrote OSEL. -/
def outTrigger (dst : Nat) (v : Quad) (kept : Bool) (x : Engine) : Engine :=
  let o := x.regs.osel
  let x := { x with out := x.out.set o.val (lowHalf v) }
  let x := if dst = 0x64 then { x with out := x.out.set (fin 12 (o.val + 1)).val (highHalf v) } else x
  if kept then x.flag flCollide
  else { x with regs.osel := fin 12 (o.val + if dst = 0x64 then 2 else 1) }

/-! ### Control (R47 to R55) -/

/-- What the packet's control move asks for. -/
inductive Ctl where
  | none
  | jmp (a : BitVec 14)
  | ret (a : BitVec 14)
  | rpt (n : Nat)
  | fin
deriving DecidableEq, Repr

/-- SP is updated by the unit unless an explicit move wrote it (R43). -/
def setSp (v : Half) (kept : Bool) (x : Engine) : Engine :=
  if kept then x.flag flCollide else { x with regs.sp := v }

/-- A control move outside a repeated packet. SP and SPL are those at the start of the packet. -/
def ctlTrigger (e : EngId) (r0 : Regs) (dst : Nat) (v : Quad) (spKept : Bool) (s : State) : Ctl × State :=
  let a : BitVec 14 := v.truncate 14
  if dst = 0x68 then (.jmp a, s)
  else if dst = 0x69 then
    let w := r0.sp - 1
    (.jmp a, s.modEng e fun x =>
      if r0.spl ≤ w then
        setSp w spKept (x.dStore w.toNat ((x.pc + 1).zeroExtend 16))
      else x.flag flStack)
  else if dst = 0x6A then
    let (d, ok, s) := dRead e r0.sp.toNat s
    (.ret (if ok then d.truncate 14 else 0),
      s.modEng e fun x => setSp (r0.sp + 1) spKept (x.flagIf (!ok) flEccUncorr))
  else if dst = 0x6B then
    let n := (lowHalf v).toNat
    if 1 ≤ n ∧ n ≤ 4096 then (.rpt n, s) else (.none, s.modEng e fun x => x.flag flIllegal)
  else (.fin, s)

/-- A control move in a repeated packet has no effect but its flag (R52). -/
def ctlRepeated (dst : Nat) (x : Engine) : Engine := x.flag (if dst = 0x6B then flNestedRpt else flIllegal)

/-! ### A packet -/

/-- A move with the value it carries. -/
abbrev VMove := Move × Quad

/-- The move is not beaten by a trigger of the same unit in a higher parcel (R42). -/
def winsUnit (l : List VMove) (m : VMove) : Bool :=
  match unitOf m.1.dst with
  | none => true
  | some u => l.all fun k => unitOf k.1.dst ≠ some u || k.1.parcel ≤ m.1.parcel

/-- A later move of the packet writes the same place (R41). -/
def beaten (l : List VMove) (m : VMove) : Bool :=
  l.any fun k => m.1.parcel < k.1.parcel && (writeKeys k.1.dst k.2).any fun a => (writeKeys m.1.dst m.2).contains a

/-- Results that are due reach their ports, oldest first (R40). -/
def deliver1 (r : Regs) (f : Flight) : Regs :=
  match f.unit with
  | .lsu => { r with lsuR := f.val }
  | .row => { r with row := f.val }
  | .dly => { r with dlyR := f.val }

/-- Deliver the results with nothing left to wait for. -/
def Engine.deliver (x : Engine) : Engine :=
  { x with regs := (x.flight.filter fun f => f.left = 0).foldl deliver1 x.regs, flight := x.flight.filter fun f => f.left ≠ 0 }

/-- A packet issues: results still on their way come one packet nearer. -/
def Engine.advance (x : Engine) : Engine :=
  { x with flight := x.flight.map fun f => { f with left := f.left - 1 } }

/-- The trigger of a unit among the moves that stand. -/
def trig (l : List VMove) (u : Nat) : Option (Nat × Quad) :=
  (l.find? fun m => unitOf m.1.dst = some u).map fun m => (m.1.dst, m.2)

/-- Apply f when the unit is triggered. -/
def onTrig (l : List VMove) (u : Nat) (f : Nat → Quad → α → α) (a : α) : α :=
  match trig l u with
  | some (d, v) => f d v a
  | none => a

/-- The moves of a well-formed packet take effect; loads and the read of a RET come before the store (R38, R95). Returns what control
does, the delay bank requested, and the state. -/
def runMoves (e : EngId) (moves : List Move) (s : State) : Ctl × Option (Fin 16) × State :=
  let x0 := s.eng[e]
  let r0 := x0.regs
  let rep := decide (0 < x0.rpt)
  let all : List VMove := moves.map fun m => (m, moveVal s x0 m)
  let l := all.filter (winsUnit all)
  let w := l.filter fun m => !beaten l m
  let x := x0.flagIf (moves.any (·.badSrc)) flIllegal
  let x := x.flagIf (decide (l.length ≠ all.length) || decide (w.length ≠ l.length)) flCollide
  let keys := w.flatMap fun m => writeKeys m.1.dst m.2
  let x := { x with regs := w.foldl (fun r m => writePort r0 m.1.dst m.2 r) x.regs }
  let ctl := trig l 8
  let call := !rep && (match ctl with | some (0x69, _) => true | _ => false)
  let bank := match trig l 5 with | some (d, v) => dlyBank x d v | none => none
  let x := onTrig l 0 macTrigger x
  let x := { x with regs := onTrig l 2 selTrigger (onTrig l 1 aluTrigger x.regs) }
  let s := s.modEng e fun _ => x
  let s := onTrig l 3 (loadTrigger e r0) s
  let s := onTrig l 5 (fun d v => dlyTrigger e d v (keys.contains 0x59)) s
  let s := onTrig l 6 (fun d v s => s.modEng e fun x => x.fly .row 1 (rowTrigger d v s)) s
  let s := onTrig l 7 (fun d v s =>
    if d = 0x65 then postEvent e v s else s.modEng e (outTrigger d v (keys.contains 0x62))) s
  let (c, s) : Ctl × State := match ctl with
    | none => (.none, s)
    | some (d, v) => if rep then (.none, s.modEng e (ctlRepeated d)) else ctlTrigger e r0 d v (keys.contains 0x6D) s
  let s := s.modEng e fun x =>
    let x := onTrig l 3 (fun _ v => postModify r0 v keys []) x
    let other := match trig l 3 with | some (_, v) => [(lsuK v).val] | none => []
    let x := onTrig l 4 (fun _ v => postModify r0 v keys other) x
    onTrig l 4 (fun d v => storeTrigger r0 d v call) x
  (c, bank, s)

/-- The end of a packet's issue: counters, the readout stages, the next packet, and the length checks (R46, R47, R50 to R53). -/
def finish (c : Ctl) (old : Vector (BitVec 40) 8) (x : Engine) : Engine :=
  let n := x.issued + 1
  let x := { x with issued := n, regs.ac2 := x.regs.ac1, regs.ac1 := old }
  let next : BitVec 14 := match c with
    | .jmp a => a
    | .ret a => a
    | _ => if 1 < x.rpt then x.pc else x.pc + 1
  let x := { x with pc := next, rpt := match c with | .rpt k => k | _ => x.rpt - 1 }
  if c = .fin then
    if n < x.prog.length then { x.flagLength 1 with stopped := true } else { x with stopped := true }
  else if x.prog.length ≤ n then { x.flagLength 2 with stopped := true }
  else x

/-- One packet in full, with the delay bank that it requests. -/
def issue (e : EngId) (s : State) : Option (Fin 16) × State :=
  let s := s.modEng e Engine.deliver
  let old := s.eng[e].regs.ac
  let (w, s) := fetch e s.eng[e].pc.toNat s
  let s := s.modEng e Engine.advance
  match w with
  | none => (none, s.modEng e fun x => finish .none old (x.flag flEccUncorr))
  | some w => match decodePacket w with
    | none => (none, s.modEng e fun x => finish .none old (x.flag flIllegal))
    | some moves =>
      let (c, bank, s) := runMoves e moves s
      (bank, s.modEng e (finish c old))

/-- The engine runs a program and may issue in this tick. -/
def Engine.issuing (x : Engine) : Bool :=
  (x.st = .live || x.st = .candidate) && !x.stopped && !x.clearing && x.req.isNone

/-- The engines of a tile that wait for a bank. -/
def State.waiters (s : State) (t : TileId) (b : Fin 16) : List EngId :=
  (idx 20).filter fun e => tileOf e = t && (match s.eng[e].req with | some r => r.bank = b | none => false)

/-- A request for a bank, of this cycle. -/
def Engine.request (b : Fin 16) (x : Engine) : Engine := { x with req := some { bank := b, waited := 0 } }

/-- A request that is not granted waits one more cycle, and its engine stalls (R56). -/
def Engine.wait (x : Engine) : Engine :=
  { x with req := x.req.map fun r => { r with waited := r.waited + 1 }, stalls := x.stalls + 1 }

/-- PACKET_ISSUE: the packet issues, or requests its delay bank; then nothing of the packet happens before the bank grants it, which
it may do in the same cycle (R56 to R58). -/
def execPacketIssue (e : EngId) (s : State) : Out :=
  .next <|
    if s.eng[e].issuing && s.clk.tickRun then
      let (bank, t) := issue e s
      match bank with
      | some b => s.modEng e (Engine.request b)
      | none => t
    else s

/-- The cycles that the engine's request has waited. -/
def State.waitAge (s : State) (e : EngId) : Nat := match s.eng[e].req with | some r => r.waited | none => 0

/-- The oldest of the waiting requests; the lowest position among equals (R58). -/
def State.oldest (s : State) : List EngId → Option EngId
  | [] => none
  | e :: l => match s.oldest l with
    | none => some e
    | some f =>
      if s.waitAge e < s.waitAge f then some f else some e

/-- DELAY_BANK_GRANT, the bank's choice in a cycle: the oldest request is served, and its engine's packet issues; every other request
waits one more cycle (R58, R59). -/
def execDelayBankGrant (t : TileId) (bank : Fin 16) (s : State) : Out :=
  .next <|
    match s.oldest (s.waiters t bank) with
    | none => s
    | some e =>
      let s := (issue e (s.modEng e fun x => { x with req := none })).2
      (s.waiters t bank).foldl (fun s f => s.modEng f Engine.wait) s

/-- UNIT_RESULT: results that are due reach their ports (R40). -/
def execUnitResult (e : EngId) (s : State) : Out := .next <| s.modEng e Engine.deliver

/-! ### Write-backs (R146) -/

/-- A P-space write-back. -/
def Engine.writeBackP (now : Nat) (x : Engine) : Engine :=
  match x.pHold with
  | some a => { x with pHold := none, pEcc := x.pEcc.clear now a }
  | none => x

def Engine.writeBackD (now : Nat) (x : Engine) : Engine :=
  match x.dHold with
  | some a => { x with dHold := none, dEcc := x.dEcc.clear now a }
  | none => x

/-- A delay-memory write-back of a bank. -/
def TileMem.writeBack (now : Nat) (b : Fin 16) (m : TileMem) : TileMem :=
  match m.wb[b] with
  | some a => { m with wb := m.wb.set b.val none, ecc := m.ecc.clear now a }
  | none => m

/-- ECC_WRITE_BACK: the pending corrected word is written in the memory's first free cycle; one of delay memory not while an engine requests
the bank (R144). -/
def execEccWriteBack (m : WbMem) (s : State) : Out :=
  .next <| match m with
    | .p e => s.modEng e (Engine.writeBackP s.clk.now)
    | .d e => s.modEng e (Engine.writeBackD s.clk.now)
    | .delay t b => if s.waiters t b = [] then s.modTile t (TileMem.writeBack s.clk.now b) else s

end Sys2Proof.Machine
end

