-- ==== Sys2Proof/Machine/Loader.lean ====
section
/-! DEFINITION. Program objects: the header, the loader's checks 0x01 to 0x0A in code order with the walk of the control trace,
and the images that a checked object carries (04 R116 to R118, 02 R45). -/
namespace Sys2Proof.Machine
open Sys2Proof

/-- Two bytes, little-endian. -/
def le16 (l : List Byte) (i : Nat) : Nat := (byteAt l i).toNat + 256 * (byteAt l (i + 1)).toNat

/-! ### The object's CRC -/

/-- The object's CRC: over bytes 0 to TOTAL − 1 with the field taken as zero. -/
def objCrc (l : List Byte) (total : Nat) : Word := crc32 (l.take 0x3C ++ [0, 0, 0, 0] ++ (l.take total).drop 0x40)

/-! ### The header (Table 04.7) -/

structure ObjHdr where
  length  : Nat
  allow   : Nat
  entry   : Nat
  pcount  : Nat
  dcount  : Nat
  pwbase  : Nat
  pwsize  : Nat
  ndl     : Nat
  defgrp  : Nat
  stk     : Nat
  poff    : Nat
  doff    : Nat
  dloff   : Nat
  total   : Nat
deriving DecidableEq, Repr

def objHdr (l : List Byte) : ObjHdr :=
  { length := le32 l 8, allow := le32 l 0xC, entry := le16 l 0x10, pcount := le16 l 0x12, dcount := le32 l 0x14,
    pwbase := le16 l 0x18, pwsize := le16 l 0x1A, ndl := (byteAt l 0x1C).toNat, defgrp := (byteAt l 0x1D).toNat,
    stk := le16 l 0x1E, poff := le32 l 0x20, doff := le32 l 0x24, dloff := le32 l 0x28, total := le32 l 0x2C }

/-- Check 0x01. -/
def chk01 (l : List Byte) : Bool :=
  64 ≤ l.length && 64 ≤ (objHdr l).total && (objHdr l).total ≤ l.length && le32 l 0 = 0x505A4543 && le16 l 4 = 1
    && le16 l 6 = 0x40 && ((l.drop 0x30).take 12).all (· = 0) && le32 l 0x3C = (objCrc l (objHdr l).total).toNat

/-- Delay table entry n: N, w, flags, and the reserved bytes. -/
def dlEntry (l : List Byte) (h : ObjHdr) (n : Nat) : Nat × Nat × Bool :=
  let o := h.dloff + 8 * n
  (le32 l o, (byteAt l (o + 4)).toNat, bit (byteAt l (o + 5)) 0)

/-- A delay table entry keeps R117. -/
def dlOk (l : List Byte) (h : ObjHdr) (n : Nat) : Bool :=
  let o := h.dloff + 8 * n
  let e := dlEntry l h n
  1 ≤ e.1 && (e.2.1 = 1 || e.2.1 = 2 || e.2.1 = 4) && e.1 * e.2.1 ≤ 4194304
    && (byteAt l (o + 5)).toNat < 2 && le16 l (o + 6) = 0

/-- Two sections of bytes do not overlap; an empty one overlaps nothing. -/
def apart (a n b m : Nat) : Bool := n = 0 || m = 0 || a + n ≤ b || b + m ≤ a

/-- Check 0x02. An empty section, too, begins within TOTAL (the model's choice, log 134). -/
def chk02 (l : List Byte) : Bool :=
  let h := objHdr l
  let p := 8 * h.pcount
  let d := 2 * h.dcount
  let t := 8 * h.ndl
  1 ≤ h.length && h.length ≤ 16320 && h.entry < h.pcount && 1 ≤ h.pcount && h.pcount ≤ 16384 && h.dcount ≤ 65536
    && h.pwbase % 4 = 0 && h.pwsize ≤ 16384 && h.pwbase + h.pwsize ≤ h.dcount && h.ndl ≤ 64
    && (h.defgrp < 16 || h.defgrp = 255) && h.poff % 8 = 0 && h.doff % 2 = 0 && h.dloff % 8 = 0
    && h.poff + p ≤ h.total && h.doff + d ≤ h.total && h.dloff + t ≤ h.total
    && apart 0 64 h.poff p && apart 0 64 h.doff d && apart 0 64 h.dloff t
    && apart h.poff p h.doff d && apart h.poff p h.dloff t && apart h.doff d h.dloff t
    && (List.range h.ndl).all (dlOk l h)

/-! ### Images -/

/-- A 64-bit word, little-endian. -/
def le64 (l : List Byte) (i : Nat) : Quad := BitVec.ofNat 64 (le32 l i + 4294967296 * le32 l (i + 4))

def imgP (l : List Byte) (h : ObjHdr) : List Quad := (List.range h.pcount).map fun i => le64 l (h.poff + 8 * i)
def imgD (l : List Byte) (h : ObjHdr) : List Half :=
  (List.range h.dcount).map fun i => BitVec.ofNat 16 (le16 l (h.doff + 2 * i))

/-- A list of words as a memory from address 0. -/
def memOf (l : List (BitVec w)) : Mem w :=
  (l.zipIdx.filter fun x => x.1 ≠ 0).map fun x => (x.2, x.1)

/-- A packet of the P image has no cause of Table 04.6 (check 0x03). -/
def packetOk (w : Quad) : Bool :=
  match decodePacket w with
  | some l => l.all fun m => !m.badSrc
  | none => false

/-! ### The control trace (R118) -/

/-- What the walk of the trace keeps. -/
structure Tr where
  pc     : Nat
  n      : Nat
  d      : Nat
  calls  : List Nat
  deep   : Nat
  rpt    : Nat
  sp     : Option Nat
  spl    : Option Nat
  /-- what an A register can hold, as ranges (first value, how many); none where no immediate has written it in the tick -/
  a      : Vector (Option (List (Nat × Nat))) 8
  /-- M, L, B by key − 264: not written yet, written from another source, written from an immediate -/
  mlb    : Vector (Option (Option (BitVec 24))) 24
  /-- keys of M, L, B that the trace writes -/
  keys   : List Nat
  /-- stack words: lowest and one above the highest -/
  stack  : List (Nat × Nat)
  /-- stores: packet address, first word, words -/
  stores : List (Nat × Nat × Nat)
  /-- WRITE and ADV triggers by descriptor -/
  dlw    : List (Nat × Bool)
  errs   : List (Nat × Nat)
  ended  : Bool

def Tr.start (entry : Nat) : Tr :=
  { pc := entry, n := 0, d := 0, calls := [], deep := 0, rpt := 0, sp := none, spl := none, a := .replicate 8 none,
    mlb := .replicate 24 none, keys := [], stack := [], stores := [], dlw := [], errs := [], ended := false }

def Tr.err (t : Tr) (code : Nat) : Tr := { t with errs := t.errs ++ [(code, t.pc)] }
def Tr.errIf (t : Tr) (b : Bool) (code : Nat) : Tr := if b then t.err code else t

/-- The value of an immediate move; a REGMOD move is none. -/
def Move.immVal (m : Move) : Option Quad :=
  match m.src with
  | .imm v => if m.mods = 0 then some (if m.swap then swapHalves v else v) else none
  | .code _ => none

/-- A short immediate or an IMM21 without H (check 0x04). -/
def Move.ctlImm (m : Move) : Option Quad := if m.swap || m.hi then none else m.immVal

/-- The value of M, L or B under key k at this packet, if the trace determines it; `all` are the keys that the whole trace
writes. -/
def Tr.det (t : Tr) (all : List Nat) (k : Nat) : Option (BitVec 24) :=
  match t.mlb[fin 24 (k - 264)] with
  | none => if all.contains k then none else some 0
  | some v => v

/-- The step M[j]. -/
def Tr.step (t : Tr) (all : List Nat) (j : Fin 8) : Option Int := (t.det all (264 + j.val)).map (·.toInt)

/-- The values that the rule of R90 makes of a range for a step, none for one that the trace does not determine. -/
def aguRange (l b : Option (BitVec 24)) (d : Option Int) (r : Nat × Nat) : Nat × Nat :=
  match l, b, d with
  | some l, some b, some d =>
    if r.2 = 1 then ((aguNext (BitVec.ofNat 24 r.1) l b d).toNat, 1)
    else if l = 0 then ((((r.1 : Int) + d) % 16777216).toNat, r.2) else (b.toNat, l.toNat)
  | some l, some b, none => if l = 0 then (0, 16777216) else (b.toNat, l.toNat)
  | _, _, _ => (0, 16777216)

/-- What A[k] can hold after one of the steps. -/
def Tr.moved (t : Tr) (all : List Nat) (k : Fin 8) (ds : List (Option Int)) : Option (List (Nat × Nat)) :=
  t.a[k].map fun rs => (rs.flatMap fun r => ds.map fun d =>
    aguRange (t.det all (272 + k.val)) (t.det all (280 + k.val)) d r).eraseDups

/-- What a register can hold where it may have been left alone or changed. -/
def either (x y : Option (List (Nat × Nat))) : Option (List (Nat × Nat)) :=
  match x, y with
  | some x, some y => some (x ++ y).eraseDups
  | _, _ => x

/-- A move's write of an address register. -/
def Tr.writeReg (t0 : Tr) (all : List Nat) (m : Move) (t : Tr) : Tr :=
  match m.immVal with
  | some v =>
    let k := aguK v
    let x : BitVec 24 := BitVec.ofNat 24 (fld v 3 24)
    if m.dst = 0x44 then { t with a := t.a.set k.val (some [(x.toNat, 1)]) }
    else if m.dst = 0x48 then { t with a := t.a.set k.val (t0.moved all k [some x.toInt]) }
    else if 0x45 ≤ m.dst ∧ m.dst ≤ 0x47 then
      let i := 264 + 8 * (m.dst - 0x45) + k.val
      { t with mlb := t.mlb.set (fin 24 (i - 264)).val (some (some x)), keys := i :: t.keys }
    else t
  | none =>
    -- the index is data: any register of the kind may have been written
    if m.dst = 0x44 then { t with a := t.a.map fun x => x.map fun _ => [(0, 16777216)] }
    else if m.dst = 0x48 then { t with a := vof fun i => either t.a[i] (t0.moved all i [none]) }
    else if 0x45 ≤ m.dst ∧ m.dst ≤ 0x47 then
      let base := 8 * (m.dst - 0x45)
      { t with mlb := vof fun i => if base ≤ i.val ∧ i.val < base + 8 then some none else t.mlb[i],
               keys := ((List.range 8).map fun k => 264 + base + k) ++ t.keys }
    else t

/-- The moves of a packet that survive R42, without values: the highest parcel of a unit. -/
def survivors (l : List Move) : List Move :=
  l.filter fun m => match unitOf m.dst with
    | none => true
    | some u => l.all fun k => unitOf k.dst ≠ some u || k.parcel ≤ m.parcel

/-- The D words that an access of w words can reach through a range of addresses: the first, and how many. -/
def reach (w : Nat) (r : Nat × Nat) : Nat × Nat :=
  let a := r.1 % 65536
  if 65536 < a + r.2 then (0, 65536) else (a / w * w, (a + r.2 - 1) / w * w + w - a / w * w)

/-- A store through A[k] and M[j] meets check 0x08 as far as its registers go. -/
def Tr.storable (t : Tr) (all : List Nat) (ks js : List (Fin 8)) : Bool :=
  (ks.all fun k => t.a[k].isSome && (t.det all (272 + k.val)).isSome && (t.det all (280 + k.val)).isSome)
    && js.all fun j => (t.det all (264 + j.val)).isSome

/-- An LSU trigger in the trace: the words that a store can reach, and the post-modification of its A register. Where the descriptor is
data, any register may be the one (log 78). -/
def Tr.lsu (t0 : Tr) (all : List Nat) (m : Move) (t : Tr) : Tr :=
  let ks := match m.immVal with | some v => [lsuK v] | none => List.finRange 8
  let js := match m.immVal with | some v => [lsuJ v] | none => List.finRange 8
  let t : Tr := if m.dst < 0x54 then t
    else if t0.storable all ks js then
      { t with stores := t.stores ++ (ks.flatMap fun k => (t0.a[k].getD []).map fun r => (t.pc, reach (lsuWords m.dst) r)) }
    else t.err 8
  let new (k : Fin 8) := t0.moved all k (js.map (t0.step all))
  match m.immVal with
  | some v => { t with a := t.a.set (lsuK v).val (new (lsuK v)) }
  | none => { t with a := vof fun k => either t.a[k] (new k) }

/-- A move to CTL.JMP, CTL.CALL or CTL.RPT breaks check 0x04. -/
def Move.badCtl (pcount : Nat) (m : Move) : Bool :=
  if m.dst = 0x68 ∨ m.dst = 0x69 then match m.ctlImm with | some v => decide (pcount ≤ fld v 0 14) | none => true
  else if m.dst = 0x6B then match m.ctlImm with
    | some v => (lowHalf v).toNat < 1 || 4096 < (lowHalf v).toNat
    | none => true
  else false

/-- Checks 0x04, 0x05 and 0x09 on the moves of a packet. -/
def Tr.placement (pcount ndl : Nat) (l : List Move) (rep : Bool) (t : Tr) : Tr :=
  let ctl := l.filter fun m => unitOf m.dst = some 8
  let t := t.errIf (l.any (Move.badCtl pcount)) 4
  let t := t.errIf (decide (2 ≤ ctl.length)) 5
  let t := t.errIf (rep && ctl ≠ []) 5
  let t := t.errIf (l.any fun m => (m.dst = 0x6D || m.dst = 0x6E) && m.immVal.isNone) 5
  let t := t.errIf ((l.any fun m => m.dst = 0x69) && l.any fun m => unitOf m.dst = some 4) 5
  t.errIf (l.any fun m => unitOf m.dst = some 5 && match m.immVal with | some v => decide (ndl ≤ fld v 0 6) | none => true) 9

/-- A write of SP or SPL from an immediate, which counts as one with a call open in the packet of the outermost CALL and of the RET too
(log 134); once both are written, SP − STKDEPTH must not lie below SPL (check 0x07). -/
def Tr.stackRegs (stk : Nat) (l : List Move) (open_ : Bool) (t : Tr) : Tr :=
  let w (m : Move) : Bool := m.dst = 0x6D || m.dst = 0x6E
  let u := l.foldl (fun t m =>
    if w m then
      let t := t.errIf open_ 7
      let v := m.immVal.map fun v => fld v 0 16
      if m.dst = 0x6D then { t with sp := v } else { t with spl := v }
    else t) t
  match u.sp, u.spl with
  | some sp, some spl => u.errIf (l.any w && decide (sp < spl + stk)) 7
  | _, _ => u

/-- A CALL in the trace: check 0x07 at an outermost call. The stack words are SP − STKDEPTH to SP − 1 as SP stands there (log 134). -/
def Tr.call (h : ObjHdr) (ret : Nat) (target : Nat) (t0 t : Tr) : Tr :=
  let t := if t0.calls = [] then
      match t0.sp, t0.spl with
      | some sp, some spl =>
        let bad := sp < spl + h.stk || sp < h.stk + h.dcount
        { t.errIf bad 7 with stack := (sp - h.stk, sp) :: t.stack }
      | _, _ => t.err 7
    else t
  { t with calls := ret :: t0.calls, deep := max t.deep (t0.calls.length + 1), pc := target }

/-- One packet of the trace. A write of SP or SPL in the packet of the outermost CALL or in that of the RET counts as one with a call open
(the model's choice, log 134). -/
def trStep (h : ObjHdr) (p : Mem 64) (all : List Nat) (t0 : Tr) : Tr :=
  let rep := decide (0 < t0.rpt)
  let l := (decodePacket (p.get t0.pc)).getD []
  let sv := survivors l
  let ctl := if rep then none else sv.find? fun m => unitOf m.dst = some 8
  let t := t0.placement h.pcount h.ndl l rep
  let dly := sv.find? fun m => unitOf m.dst = some 5
  let t : Tr := match dly with
    | some m =>
      let t := { t with d := t.d + if m.dst = 0x5D then 0 else 1 }
      if m.dst = 0x5B then t
      else { t with dlw := ((match m.immVal with | some v => fld v 0 6 | none => 64), decide (m.dst = 0x5C)) :: t.dlw }
    | none => t
  let t := ((sv.filter fun m => unitOf m.dst = some 3) ++ sv.filter fun m => unitOf m.dst = some 4).foldl
    (fun t m => t0.lsu all m t) t
  let t := l.foldl (fun t m => t0.writeReg all m t) t
  let opening := match ctl with | some m => m.dst = 0x69 | none => false
  let t := t.stackRegs h.stk l (t0.calls ≠ [] || opening)
  let t := { t with n := t0.n + 1 }
  let seq := (t0.pc + 1) % 16384
  match ctl with
  | none => { t with rpt := t0.rpt - 1, pc := if 1 < t0.rpt then t0.pc else seq }
  | some m =>
    if m.dst = 0x6C then { t.errIf (t0.calls ≠ []) 6 with ended := true }
    else if m.dst = 0x6A then
      match t0.calls with
      | r :: c => { t with pc := r, calls := c }
      | [] => { t.err 6 with ended := true }
    else match m.ctlImm with
      | none => { t with ended := true }
      | some v =>
        if m.dst = 0x6B then
          let n := (lowHalf v).toNat
          if m.badCtl h.pcount then { t with ended := true } else { t with rpt := n, pc := seq }
        else
          let a := fld v 0 14
          if m.badCtl h.pcount then { t with ended := true }
          else if m.dst = 0x69 then Tr.call h seq a t0 t
          else { t with pc := a }

/-- Walk at most the given number of packets; the last of them fails check 0x06 where it does not reach END (the model's choice of
the address reported, log 134). -/
def trace (h : ObjHdr) (p : Mem 64) (all : List Nat) : Nat → Tr → Tr
  | 0, t => t
  | n + 1, t =>
    if t.ended then t
    else
      let u := trStep h p all t
      if n = 0 ∧ !u.ended then { u with errs := u.errs ++ [(6, t.pc)] } else trace h p all n u

/-- The stack words that a store reaches make it fail check 0x08. -/
def Tr.storeErrs (t : Tr) : List (Nat × Nat) :=
  (t.stores.filter fun s => t.stack.any fun k => s.2.1 < k.2 && k.1 < s.2.1 + s.2.2).map fun s => (8, s.1)

/-- Insert by code: the first error of the lowest code comes first. -/
def firstErr : List (Nat × Nat) → Option (Nat × Nat)
  | [] => none
  | e :: l => match firstErr l with
    | none => some e
    | some f => if f.1 < e.1 then some f else some e

/-! ### The loader -/

/-- What an accepted object gives. -/
structure Program where
  info : ProgInfo
  p    : Mem 64
  d    : List Half
  defgrp : Nat

/-- The outcome: the code of the check that failed and the packet address where one applies (none is 0xFFFF). -/
inductive LoadRes where
  | ok (p : Program)
  | bad (code addr : Nat)

/-- Descriptors through which the trace issues exactly one WRITE and no ADV. -/
def Tr.onces (t : Tr) : List Nat :=
  (List.range 64).filter fun n => t.dlw.filter (fun x => x.1 = n) = [(n, true)]

/-- Checks 0x04 to 0x0A on the trace, which stops after one packet more than the budget. Of several packets that fail check 0x08, one whose
address the trace does not determine is reported before one that reaches a stack word (log 134). -/
def chkTrace (l : List Byte) (budget : Nat) : LoadRes :=
  let h := objHdr l
  let pl := imgP l h
  let p := memOf pl
  let fuel := budget + 1
  let t1 := trace h p [] fuel (.start h.entry)
  let t := trace h p t1.keys fuel (.start h.entry)
  let e7 := if h.stk ≠ t.deep then [(7, 0xFFFF)] else []
  let ea := if h.length ≠ t.n ∨ h.allow ≠ 4 * t.d ∨ budget < t.n + 4 * t.d then [(10, 0xFFFF)] else []
  match firstErr (t.errs ++ e7 ++ t.storeErrs ++ ea) with
  | some (c, a) => .bad c a
  | none => .ok { p := p, d := imgD l h, defgrp := h.defgrp,
                  info := { length := h.length, allow := h.allow, entry := h.entry, pcount := h.pcount, dcount := h.dcount,
                            pwbase := h.pwbase, pwsize := h.pwsize, dl := (List.range h.ndl).map (dlEntry l h),
                            once := t.onces, bytes := l.take h.total } }

/-- The footprint budget (Table 02.1). -/
def MRate.budget (m : MRate) : Nat := m.cycles - 64

/-- The loader's checks in code order. -/
def checkObject (l : List Byte) (budget : Nat) : LoadRes :=
  if !chk01 l then .bad 1 0xFFFF
  else if !chk02 l then .bad 2 0xFFFF
  else match (imgP l (objHdr l)).findIdx? fun w => !packetOk w with
    | some a => .bad 3 a
    | none => chkTrace l budget

end Sys2Proof.Machine
end

