-- ==== Sys2Proof/Machine/Update.lean ====
section
/-! DEFINITION. Placement and start of programs, parameter banks, auditions, commits, aborts and migrations as shared
operations (05, 06). -/
namespace Sys2Proof.Machine
open Sys2Proof

/-! ### Placement (R141) -/

/-- Lay out lines from bank word c on: the base of each line that is not inherited, and the bank word after the last. -/
def layLines (p : Nat) : Nat → Nat → List (Nat × Nat × Bool) → List Nat × Nat
  | _, c, [] => ([], c)
  | n, c, (cnt, w, inh) :: l =>
    if inh then
      let (b, e) := layLines p (n + 1) c l
      (0 :: b, e)
    else
      let base := c + ((3 * p + 5 * n) % 16 + 16 - c % 16) % 16
      let (b, e) := layLines p (n + 1) (base + (cnt * w + 3) / 4) l
      (base :: b, e)

/-- A block may be given out: free and not excluded. -/
def TileMem.isFree (m : TileMem) (b : Nat) : Bool := m.tag b = 0x1F && !m.excluded.contains b

/-- The lowest run of k blocks of a tile that are free. -/
def freeRunOf (free : Nat → Bool) (k : Nat) : Option Nat :=
  if k = 0 then some 0
  else (List.range 2048).find? fun b => b + k ≤ 2048 && (List.range k).all fun i => free (b + i)

def TileMem.freeRun (m : TileMem) (k : Nat) : Option Nat := freeRunOf m.isFree k

def wcodeOf (w : Nat) : BitVec 2 := if w = 1 then 0 else if w = 2 then 1 else 2

/-- The descriptors of lines laid out in a region that starts at a block; an inherited line is left for the start (R140). -/
def descsOf (blk : Nat) (dl : List (Nat × Nat × Bool)) (inh : List Bool) (bases : List Nat) : Vector Desc 64 :=
  vpad 64 .zero ((dl.zip (inh.zip bases)).map fun x =>
    { base4 := BitVec.ofNat 20 (blk * 512 + x.2.2), n := BitVec.ofNat 23 x.1.1, wcode := wcodeOf x.1.2.1, inherit := x.2.1, w := 0 })

/-- Place a program's lines on an engine: the descriptors and the blocks, or none for want of a run. -/
def placeLines (t : TileMem) (p : Nat) (dl : List (Nat × Nat × Bool)) (inh : List Bool) :
    Option (Vector Desc 64 × List Nat) :=
  let (bases, e) := layLines p 0 0 ((dl.zip inh).map fun x => (x.1.1, x.1.2.1, x.2))
  let k := (e + 511) / 512
  (t.freeRun k).map fun b => (descsOf b dl inh bases, (List.range k).map (b + ·))

/-! ### Spares (R158, R159) -/

/-- The engine is free for use. -/
def Engine.free (x : Engine) : Bool := x.st = .spare && x.grp.isNone && !x.testDue

def State.spares (s : State) : List EngId := (idx 20).filter fun e => s.eng[e].free

/-- The spare for a direct start: in a tile that keeps one afterwards, wherever one exists. -/
def directOf (l : List EngId) : Option EngId :=
  match l.find? fun e => 2 ≤ (l.filter fun f => tileOf f = tileOf e).length with
  | some e => some e
  | none => l.head?

def State.directSpare (s : State) : Option EngId := directOf s.spares

/-- The lowest spare of a tile. -/
def State.tileSpare (s : State) (t : TileId) : Option EngId := s.spares.find? fun e => tileOf e = t

/-- LIVE engines. -/
def State.liveCount (s : State) : Nat := (s.eng.toList.filter fun x => x.st = .live).length

/-- The audition is not over. -/
def Audition.active (a : Audition) : Bool := !a.ended

/-- The audition of a group that is not over. -/
def State.audOf (s : State) (g : GrpId) : Option Audition := s.grp[g].aud.bind fun a => if a.active then some a else none

/-! ### Loading (R117, R127, R150) -/

/-- The window words of a D image. -/
def windowOf (i : ProgInfo) (d : List Half) : Mem 16 := memOf ((d.drop i.pwbase).take i.pwsize)

/-- Load an engine: both images, both arrays, the descriptors; every word is valid afterwards. -/
def Engine.load (l : Loading) (desc : Vector Desc 64) (g : GrpId) (x : Engine) : Engine :=
  { x with prog := l.info, p := l.p, d := memOf l.d, par0 := l.a0, par1 := l.a1, bank := l.bank, desc := desc, grp := some g,
           pEcc := x.pEcc.reload, dEcc := x.dEcc.reload, pHold := none, dHold := none }

/-- A program object with both arrays at its window values and IO.BANK 0 (R150). -/
def Program.loading (p : Program) : Loading :=
  let w := windowOf p.info p.d
  { info := p.info, p := p.p, d := p.d, a0 := w, a1 := w, bank := false }

/-- R74 and the start of a program: registers, ports and latches cleared; the engine issues from the next start window. -/
def Engine.begin (st : EngState) (g : GrpId) (x : Engine) : Engine :=
  { x with st := st, grp := some g, regs := .zero, flight := [], out := .replicate 12 0, latch := .replicate 12 0,
           flags := 0, events := [], kept := [], req := none, rpt := 0, issued := 0, stalls := 0, stopped := true,
           faultDue := false, clearing := false, holds := false }

/-- The engine leaves its program. -/
def Engine.leave (st : EngState) (x : Engine) : Engine :=
  { x with st := st, grp := none, stopped := true, req := none, flight := [], kept := [], faultDue := false,
           clearing := false, holds := false }

/-- The engine is FAULTED; `holds`: its blocks keep the tag of its group (R68, R143). -/
def Engine.fault (holds : Bool) (x : Engine) : Engine :=
  { x with st := .faulted, faultDue := false, stopped := true, req := none, flight := [], holds := holds }

/-- A LIVE engine gives up its group: SPARE, or FAULTED when its last tick had a fault (Table 02.5). -/
def Engine.retire (x : Engine) : Engine := if x.faultDue then x.fault false else x.leave .spare

/-- The engine begins a BIST run (R483). -/
def Engine.test (x : Engine) : Engine := { x with st := .test, bistLeft := 256, bist := none, bistBad := false, testDue := false }

/-- Load a program for a direct start in a group and tag its region (R140, R141); none for want of an engine or of blocks. -/
def loadLive (e : EngId) (g : GrpId) (p : Program) (s : State) : Option State :=
  let t := tileOf e
  let dl := p.info.dl
  match placeLines s.tile[t] (posOf e) dl (dl.map fun _ => false) with
  | none => none
  | some (desc, blocks) =>
    let desc := vof fun (n : Fin 64) => { desc[n] with inherit := (dl.getD n.val (0, 0, false)).2.2 }
    some ((s.modEng e (Engine.load p.loading desc g)).modTile t
      fun m => m.setTags blocks (BitVec.ofNat 5 g.val))

/-- Blocks tagged for a group, in a tile, that no line of its owner reaches. -/
def State.orphans (s : State) (g : GrpId) (t : TileId) : List Nat :=
  (s.tile[t].tagged (BitVec.ofNat 5 g.val)).filter fun b => match s.grp[g].owner with
    | some o => !(tileOf o = t && s.eng[o].reaches b)
    | none => true

/-- From the next boundary, the orphaned blocks of a group are free, and no former owner holds any (R143). -/
def freeOrphans (g : GrpId) (s : State) : State :=
  forIdx 4 (fun t s =>
    let l := s.orphans g t
    if l = [] then s else { s with fw.sched := s.fw.sched ++ [{ due := .next, change := .freeBlocks t g l }] })
    { s with eng := vmap (fun (x : Engine) => if x.st = .faulted ∧ x.grp = some g then { x with holds := false } else x) s.eng }

/-- The end of a crossfade: the outgoing engine is SPARE and its blocks that the new owner does not reach are free. -/
def endCrossfade (g : GrpId) (s : State) : State :=
  match s.grp[g].xf with
  | none => s
  | some f =>
    let s := s.modGrp g fun y => { y with xf := none }
    let s := match f.outgoing with | some o => s.modEng o Engine.retire | none => s
    let l := f.blocks.filter fun b => match s.grp[g].owner with
      | some n => !(tileOf n = f.tile && s.eng[n].reaches b)
      | none => true
    s.modTile f.tile fun m => m.freeBlocks l

/-- Room for one more LIVE engine under the limit of 16: the crossfade of the lowest group that has an outgoing engine ends (R11, R65,
log 127). -/
def makeRoom (s : State) : State :=
  if s.liveCount < 16 then s
  else match (idx 16).find? fun g => (s.grp[g].xf.bind fun f => f.outgoing).isSome with
    | some g => endCrossfade g s
    | none => s

/-- The TUNE writes that wait for a copy of a group are discarded, and the copy is over. -/
def dropTunes (g : GrpId) (s : State) : State :=
  { s.modGrp g fun y => { y with copyTo := none, copying := false } with fw.heldTune := s.fw.heldTune.filter fun h => h.1 ≠ g }

/-- A program that was loaded for a direct start is not started: its engine is SPARE and its blocks are free. -/
def unload (g : GrpId) (e : EngId) (s : State) : State :=
  let x := s.eng[e]
  (s.modEng e (Engine.leave .spare)).modTile (tileOf e) fun m =>
    m.freeBlocks ((m.tagged (BitVec.ofNat 5 g.val)).filter x.reaches)

/-- Of blocks that a group was to lose, those that are still its own and that no engine with a program for it reaches (R143). -/
def State.lost (s : State) (t : TileId) (g : GrpId) (l : List Nat) : List Nat :=
  l.filter fun b => decide (s.tile[t].tag b = BitVec.ofNat 5 g.val) && !(idx 20).any fun e =>
    tileOf e = t && decide (s.eng[e].grp = some g) && decide (s.eng[e].st ≠ .faulted) && s.eng[e].reaches b

/-- A program fits the footprint budget of the rate of M in force (R45). -/
def State.fits (s : State) (i : ProgInfo) : Bool := decide (i.length + i.allow ≤ s.clk.mrate.cycles - 64)

/-- A directly started program becomes LIVE in its group; a group that a commit has given an owner meanwhile keeps it (R65, log 127), and a
program that no longer fits the rate of M is not started (R45, log 121). -/
def startLive (g : GrpId) (e : EngId) (s : State) : State :=
  if s.grp[g].owner.isSome then unload g e s
  else if !s.fits s.eng[e].prog then raise 0x8506 [wordN g.val, 1] (unload g e s)
  else
    let s := (makeRoom s).modEng e (Engine.begin .live g)
    freeOrphans g (dropTunes g (s.modGrp g fun y => { y with owner := some e, fade := none, waiting := none, givenUp := false }))

/-! ### Delay inheritance (R166) -/

/-- Line n may inherit: SAME counts as INHERIT = 1 in the delay table, and the other conditions of R166 hold for it too (log 133). -/
def mayInherit (i t : ProgInfo) (same : Bool) (n : Nat) : Bool :=
  match i.dl[n]?, t.dl[n]? with
  | some (a, w, inh), some (b, v, _) => (inh || same) && a = b && w = v && i.once.contains n && t.once.contains n
  | _, _ => false

/-- Which lines of a candidate inherit. -/
def inherits (i : ProgInfo) (target : Option ProgInfo) (same allow : Bool) : List Bool :=
  (List.range i.dl.length).map fun n => match target with
    | some t => allow && mayInherit i t same n
    | none => false

/-! ### Auditions -/

/-- Put an audition in place: load the candidate, place its lines, wait for boundary S. -/
def placeAudition (g : GrpId) (a : Audition) (l : Loading) (s : State) : Option State :=
  let e := a.cand
  let t := tileOf e
  let target := s.grp[g].owner.map fun o => s.eng[o].prog
  let inh := inherits l.info target a.same (a.inherit && (match s.grp[g].owner with | some o => tileOf o = t | none => false))
  match placeLines s.tile[t] (posOf e) l.info.dl inh with
  | none => none
  | some (desc, blocks) =>
    some (((s.modEng e (Engine.load l desc g)).modTile t
      fun m => m.setTags blocks (BitVec.ofNat 5 (16 + posOf e))).modGrp g
        fun y => { y with aud := some { a with waiting := true } })

/-- An inherited descriptor takes the target's line and W (R140). -/
def inheritDescs (tgt x : Engine) : Engine :=
  { x with desc := vof fun n => if x.desc[n].inherit then { tgt.desc[n] with inherit := true } else x.desc[n] }

/-- n words of a parameter array from an offset on are written: their check bits are right, and a pending write-back of one is cancelled
(R146). -/
def Engine.wrotePar (b : Bool) (o n : Nat) (x : Engine) : Engine :=
  { x with dEcc := x.dEcc.wroteMany (parKey b o) n,
           dHold := match x.dHold with
             | some a => if parKey b o ≤ a ∧ a < parKey b o + n then none else some a
             | none => none }

/-- Both arrays and IO.BANK of the target (R150). -/
def copyBanks (tgt x : Engine) : Engine :=
  { (x.wrotePar false 0 16384).wrotePar true 0 16384 with par0 := tgt.par0, par1 := tgt.par1, bank := tgt.bank }

/-- The spare becomes CANDIDATE (R161). -/
def startAudition (g : GrpId) (s : State) : State :=
  match s.audOf g with
  | none => s
  | some a =>
    let e := a.cand
    if s.eng[e].st = .spare ∧ a.waiting then
      let x := (s.eng[e]).begin .candidate g
      let x := match s.grp[g].owner with
        | some o => if s.eng[o].st = .live then
            inheritDescs s.eng[o] (if a.same then copyBanks s.eng[o] x else x) else x
        | none => x
      s.modEng e fun _ => x
    else s

/-- The candidate leaves: SPARE, or FAULTED when its own fault was the cause; its region is freed (R171). -/
def dropCandidate (e : EngId) (s : State) : State :=
  let t := tileOf e
  let s := s.modEng e fun x => if x.faultDue then { x.fault false with grp := none } else x.leave .spare
  s.modTile t fun m => m.freeBlocks (m.tagged (BitVec.ofNat 5 (16 + posOf e)))

/-- Schedule a change for the next boundary. -/
def atNext (c : Change) (s : State) : State := { s with fw.sched := s.fw.sched ++ [{ due := .next, change := c }] }

/-- The change is made at the frame, or at the next boundary. -/
def schedule (c : Change) (frame : Option Word) (s : State) : State :=
  { s with fw.sched := s.fw.sched ++ [{ due := match frame with | some f => .frame f none | none => .next, change := c }] }

/-- Every member of a commit group on the device that is not over. -/
def State.members (s : State) (n : Fin 16) : List GrpId :=
  (idx 16).filter fun g => match s.audOf g with | some a => a.cgroup = n | none => false

/-- The fault restarts of a group within the last 3,600 s. -/
def State.restarts (s : State) (g : GrpId) : List Nat :=
  s.grp[g].restarts.filter (s.lately 3600)

/-- The firmware restarts a program that faulted, or gives the group up at the limit (R172, R439). -/
def wantRestart (g : GrpId) (r : Restart) (s : State) : State :=
  if !s.fw.restartOn then s
  else if (s.restarts g).length < 3 then s.modGrp g fun y => { y with waiting := some { r with down := s.sup.restarting } }
  else raise 0x8506 [wordN g.val, 0] (s.modGrp g fun y => { y with givenUp := true, waiting := none })

/-- What a restart takes from an engine. -/
def Engine.restart (now : Word) (t : TileId) (x : Engine) : Restart :=
  { prog := x.prog, live := x.liveArray, bank := x.bank, tick := now, tile := t, down := false }

/-- KIND of a schedule (Table 12.3); 0 where none is assigned. -/
def Change.kind : Change → Nat
  | .swap _ _ => 1
  | .confirm _ | .commitGroup _ | .graph _ => 2
  | .batch _ => 3
  | .rate _ => 5
  | _ => 0

/-- The SCHED event of a change of a frame: 0 made, 2 cancelled, 3 made late. -/
def schedEvent (c : Change) (f : Word) (id outcome : Nat) (mask : Word) (s : State) : State :=
  let s : State := if outcome = 0 ∨ outcome = 3 then
      { s with fw.made := (id, c.kind, f) :: s.fw.made.filter fun x => x.1 ≠ id } else s
  raise 0x8404 [wordN id, wordN c.kind, f, wordN outcome, mask] s

/-- The change waits for the audition of a group, or for its commit group. -/
def Change.needs (c : Change) (g : GrpId) (n : Fin 16) : Bool :=
  match c with
  | .confirm h | .audition h | .place h _ _ _ _ => h = g
  | .commitGroup k => k = n
  | .graph (some p) => p.cgroup = n
  | _ => false

/-- The devices of a graph have free what they had free before it. -/
def dropInv (p : GraphPlan) (s : State) : State :=
  { s with link.members := s.link.members.map fun m => match p.inv.find? fun y => y.1 = m.pos with
      | some y => { m with free := y.2 }
      | none => m }

/-- A graph is given up: its modules on other devices are aborted, those on their way are not sent (R338). -/
def dropGraph (p : GraphPlan) (s : State) : State :=
  let me (q : Fin 32) : Bool := s.link.pos = some q
  let s := p.mods.foldl (fun s x => if me x.1 then s else sendOwn x.1 0 0x0505 none [wordN x.2.1.val] s) s
  dropInv p { s with link.jobs := s.link.jobs.filter fun j => !p.mods.any fun x => x.1 = j.pos }

/-- A change that waits is taken back; a schedule of a frame is reported as cancelled. -/
def takeBack (e : Sched) (s : State) : State :=
  let s := match e.due with
    | .frame f id => schedEvent e.change f (id.getD 0) 2 0 s
    | _ => s
  match e.change with
  | .graph (some p) => dropGraph p s
  | _ => s

/-- An audition that ends takes its scheduled start and commit with it. -/
def dropScheduled (g : GrpId) (n : Fin 16) (s : State) : State :=
  (s.fw.sched.filter fun e => e.change.needs g n).foldl (fun s e => takeBack e s)
    { s with fw.sched := s.fw.sched.filter fun e => !e.change.needs g n }

/-- A commit that is cancelled takes its candidates with it, at the next boundary (R170, R171). -/
def cancelEntry (e : Sched) (s : State) : State :=
  let s := takeBack e s
  match e.change with
  | .confirm g => atNext (.abort g 5) s
  | .commitGroup n => (s.members n).foldl (fun s g => atNext (.abort g 5) s) s
  | .graph (some p) => (s.members p.cgroup).foldl (fun s g => atNext (.abort g 5) s) s
  | _ => s

/-- Waiting changes that satisfy p are cancelled. -/
def cancelWhere (p : Sched → Bool) (s : State) : State :=
  (s.fw.sched.filter p).foldl (fun s e => cancelEntry e s) { s with fw.sched := s.fw.sched.filter fun e => !p e }

/-- The manager's own part in a schedule: the commit of its cgroup, or the same change of a twin of its own. -/
def State.ownPart (s : State) (x : SchedOut) (e : Sched) : Bool :=
  let twin := s.link.pos.any fun p => s.link.twins.any fun t => (t.a = p.val && t.b = x.target) || (t.b = p.val && t.a = x.target)
  match e.due, e.change with
  | .frame _ _, .commitGroup n => x.cgroup ≠ 0 && n = x.cgroup
  | .frame _ _, .graph (some q) => x.cgroup ≠ 0 && q.cgroup = x.cgroup
  | .frame f _, c => x.cgroup = 0 && twin && f = x.f && c.kind = x.kind
  | _, _ => false

/-- The manager cancels schedules, sent or still to be sent, on every device and in itself (R157). -/
def cancelSched (p : SchedOut → Bool) (s : State) : State :=
  if !s.link.active then s
  else
    let hit (x : SchedOut) : Bool := x.kind ≠ 4 && p x
    let l := (s.link.schedOut ++ s.link.schedSent).filter hit
    let s := { s with
      link.schedOut := (s.link.schedOut.map fun (x : SchedOut) => if hit x then { x with kind := 4, all := true } else x)
        ++ (s.link.schedSent.filter hit).map fun (x : SchedOut) => { x with kind := 4, all := true },
      link.schedSent := s.link.schedSent.filter fun x => !hit x }
    l.foldl (fun s x => cancelWhere (s.ownPart x) s) s

/-- One audition is aborted, with its event; a failed restart is tried again (R171, R172). -/
def abortOne (g : GrpId) (cause : Nat) (s : State) : State :=
  match s.audOf g with
  | none => s
  | some a =>
    let r := (s.eng[a.cand]).restart s.clk.tick a.home
    let failed := a.verdict = .fail
    let mine := s.fw.sched.filter fun e => decide (e.change = .confirm g)
    let s := dropScheduled g a.cgroup (if s.eng[a.cand].grp = some g then dropCandidate a.cand s else s)
    let s := cancelSched (fun x => x.cgroup = 0 && mine.any (s.ownPart x)) s
    let s := s.modGrp g fun y =>
      { y with aud := some { a with ended := true, verdict := if failed then .fail else .aborted } }
    let s := raise 0x8505 [wordN g.val, wordN cause] s
    if a.use = .restart ∧ s.grp[g].owner.isNone ∧ failed then wantRestart g r s else s

/-- The manager cancels a commit group: what it has scheduled for it, or, where that is nothing yet, its members on other devices (R157,
R170). -/
def cancelCommit (n : Fin 16) (s : State) : State :=
  let mine (x : SchedOut) : Bool := n ≠ 0 && x.cgroup = n && x.kind ≠ 4
  let t := cancelSched mine s
  if s.link.active then
    let l := s.link.cg.filter fun x => n ≠ 0 && x.n = n
    let t := if (s.link.schedOut ++ s.link.schedSent).any mine then t
      else l.foldl (fun s x => sendOwn x.pos 0 0x0505 none [wordN x.grp.val] s) t
    { t with link.cg := t.link.cg.filter fun x => x.n ≠ n }
  else t

/-- Every member of a commit group on the device is aborted (R170). -/
def abortGroup (n : Fin 16) (s : State) : State :=
  if n = 0 then s else cancelCommit n ((s.members n).foldl (fun s h => abortOne h 5 s) s)

/-- The same from a row between two boundaries: the auditions end at the next (R171). -/
def abortGroupNext (n : Fin 16) (s : State) : State :=
  if n = 0 then s else cancelCommit n ((s.members n).foldl (fun s h => atNext (.abort h 5) s) s)

/-- The abort of a group's audition, and of every member of its commit group on the device (R170, R171). -/
def abortAudition (g : GrpId) (cause : Nat) (s : State) : State :=
  match s.audOf g with
  | some a => abortGroup a.cgroup (abortOne g cause s)
  | none => s

/-- The most recently started of some auditions: one that waits for its start counts as the latest, of two that started together the one of the
lower group (the model's choice, log 128). -/
def newest : List (GrpId × Audition) → Option (GrpId × Audition)
  | [] => none
  | x :: l => match newest l with
    | some y => if y.2.ran < x.2.ran then some y else some x
    | none => some x

/-- The audition used for a preemption: the maintenance migration of the lowest group (log 128), or else the most recently started host
audition; only in the given tile when one is given (Table 06.1). -/
def State.victim (s : State) (host : Bool) (tile : Option TileId) : Option (GrpId × EngId) :=
  let c := (idx 16).filterMap fun g => match s.audOf g with
    | some a => if tile.getD (tileOf a.cand) = tileOf a.cand then some (g, a) else none
    | none => none
  match c.find? fun x => x.2.use = .maintenance with
  | some x => some (x.1, x.2.cand)
  | none => if host then (newest (c.filter fun x => x.2.use = .host)).map fun x => (x.1, x.2.cand) else none

/-- An audition takes the engine of another, which is aborted at the next boundary; its candidate is loaded there, and starts at the
boundary after it, or at the frame. None, and no change, when its lines find no room (R141, R159, R171, log 128). -/
def preempt (h g : GrpId) (a : Audition) (l : Loading) (frame : Option Word) (s : State) : Option State :=
  (placeAudition g a l (abortAudition h 6 s)).map fun _ =>
    (atNext (.place g a l frame s.grp[g].aud) (atNext (.abort h 6) s)).modGrp g fun y => { y with aud := some { a with waiting := true } }

/-- The criteria of Table 06.3 by default, and those of a migration. -/
def Criteria.default (same : Bool) : Criteria :=
  { peak := none, rms := none, growth := some 1200, dc := some (-2000), sat := none, null := if same then some none else none }

/-- An audition with the defaults of Table 06.2. -/
def Audition.default (use : SpareUse) (cand : EngId) (same : Bool) : Audition :=
  { use := use, cand := cand, same := same, n := 1024, settle := 0, window := 10, crit := .default same,
    confirm := !same, timeout := 60, k := 0, cgroup := 0, joined := false, home := tileOf cand, inherit := true, waiting := true, ran := 0, verdict := .running,
    confirmed := false, meas := .replicate 12 .zero, events := 0, ended := false }

/-- The images of the object that a program came from. -/
def ProgInfo.pImage (i : ProgInfo) : Mem 64 := memOf (imgP i.bytes (objHdr i.bytes))
def ProgInfo.dImage (i : ProgInfo) : List Half := imgD i.bytes (objHdr i.bytes)

/-- A LIVE program as a migration loads it (R150). -/
def Engine.loading (x : Engine) : Loading :=
  { info := x.prog, p := x.prog.pImage, d := x.prog.dImage, a0 := x.par0, a1 := x.par1, bank := x.bank }

/-- A migration of a group to another engine of its tile (R159); none when it cannot be placed. -/
def migrate (g : GrpId) (use : SpareUse) (s : State) : Option State :=
  match s.grp[g].owner with
  | none => none
  | some o =>
    if s.audOf g = none ∧ s.eng[o].st = .live then
      match s.tileSpare (tileOf o) with
      | none => none
      | some e => (placeAudition g (.default use e true) (s.eng[o]).loading s).map (atNext (.audition g))
    else none

/-- The audition of a fault restart (Table 06.5). -/
def Restart.audition (r : Restart) (e : EngId) : Audition :=
  { Audition.default .restart e false with
    n := 256, window := 6, confirm := false, k := 480, inherit := false, home := r.tile,
    crit := { peak := none, rms := none, growth := some 2400, dc := some (-2000), sat := none, null := none } }

/-- What a fault restart is loaded with (R154). -/
def Restart.loading (r : Restart) : Loading :=
  { info := r.prog, p := r.prog.pImage, d := r.prog.dImage, a0 := r.live, a1 := r.live, bank := r.bank }

/-- An attempt of a fault restart counts when it starts an audition (R172). -/
def countRestart (g : GrpId) (s : State) : State :=
  s.modGrp g fun y => { y with waiting := none, restarts := s.clk.now :: s.restarts g }

/-- The fault restart of a group: its program is loaded on a spare, or preempts a use, and the audition starts at the next boundary; where
its lines find no room nothing changes (R141, R172, log 129). The boundary lies no later than 64 ticks after the fault; a program that no
longer fits the rate of M is given up (R45, log 121). -/
def startRestart (g : GrpId) (s : State) : State :=
  match s.grp[g].waiting with
  | none => s
  | some r =>
    let age := (s.clk.tick - r.tick).toNat
    if !s.fits r.prog then raise 0x8506 [wordN g.val, 1] (s.modGrp g fun y => { y with waiting := none })
    else match (match s.tileSpare r.tile with | some e => some e | none => s.spares.head?) with
    | some e => match (if age < 64 then placeAudition g (r.audition e) r.loading s else none) with
      | some t => atNext (.audition g) (countRestart g t)
      | none => s
    | none => match (if age < 63 then s.victim true none else none) with
      | some (h, e) => (preempt h g (r.audition e) r.loading none s).getD s
      | none => s

/-- The candidate of a preemption is loaded at the boundary that has freed its engine; where its room has gone meanwhile the audition ends
(log 128); of a fault restart nothing has changed then, and the last audition's report stands (R485, log 129). -/
def placeFreed (g : GrpId) (a : Audition) (l : Loading) (frame : Option Word) (was : Option Audition) (s : State) : State :=
  match (if s.eng[a.cand].free then placeAudition g a l s else none) with
  | some t => schedule (.audition g) frame (if a.use = .restart then countRestart g t else t)
  | none =>
    if a.use = .restart then s.modGrp g fun y => { y with aud := was } else abortAudition g 6 s

/-! ### Commit (R168, R169) -/

/-- The commit of a passed candidate at boundary T. A crossfade of the group that still runs ends there (log 127), and counts toward the
limit of R169; so does one of another group where the limit of 16 would be passed. ENG_COMMIT has no old engine to name for a group
without an owner: free. -/
def commitGroup (g : GrpId) (s : State) : State :=
  match s.audOf g with
  | none => s
  | some a =>
    if a.verdict = .pass ∧ s.eng[a.cand].st = .candidate then
      let e := a.cand
      let old := s.grp[g].owner
      let fadeK := a.k ≠ 0 && decide (s.liveCount ≤ 15)
      let same := match old with | some o => decide (s.eng[o].prog.pwsize = s.eng[e].prog.pwsize) | none => false
      let s := endCrossfade g s
      let s := if old.isNone then makeRoom s else s
      let oldTile : TileId := match old with | some o => tileOf o | none => 0
      let blocks := if old.isSome then s.tile[oldTile].tagged (BitVec.ofNat 5 g.val) else []
      let s := s.modTile (tileOf e) fun m => m.setTags (m.tagged (BitVec.ofNat 5 (16 + posOf e))) (BitVec.ofNat 5 g.val)
      let s := s.modEng e fun x => { x with st := .live, kept := [] }
      let s := if same then s else dropTunes g s
      let s := s.modGrp g fun y =>
        { y with owner := some e, fade := none, givenUp := false, waiting := none,
                 aud := some { a with ended := true, verdict := .committed },
                 xf := if fadeK then some { outgoing := old, blocks := blocks, tile := oldTile, k := a.k, j := 0 } else none }
      let s := match old with
        | some o => if fadeK then s else freeOrphans g (s.modEng o Engine.retire)
        | none => freeOrphans g s
      let (n, s) := s.fresh
      raise 0x8504 [wordN g.val, wordN e.val, (match old with | some o => wordN o.val | none => Config.freeWord n), s.clk.tick,
        wordN (boolN (a.k ≠ 0 && !fadeK))] s
    else s

/-- Every member of a commit group is ready (R170). -/
def State.cgroupReady (s : State) (n : Fin 16) : Bool :=
  let m := s.members n
  m ≠ [] && m.all fun g => match s.audOf g with
    | some a => a.verdict = .pass && (!a.confirm || a.confirmed)
    | none => false

/-! ### Banks (R151, R152, R155) -/

/-- The engines that a swap or a TUNE write of a group reaches: its owner, and its candidate of the same PWSIZE. -/
def State.tuned (s : State) (g : GrpId) : List EngId :=
  match s.grp[g].owner with
  | none => []
  | some o => o :: match s.audOf g with
    | some a =>
      if !a.waiting && s.eng[a.cand].st = .candidate && s.eng[a.cand].prog.pwsize = s.eng[o].prog.pwsize then [a.cand] else []
    | none => []

/-- A swap, and a TUNE write, is refused while an audition with another PWSIZE targets the group, from the acceptance of its request on
(R155, log 133). -/
def State.tuneClash (s : State) (g : GrpId) : Bool :=
  match s.grp[g].owner, s.audOf g with
  | some o, some a => s.eng[a.cand].grp = some g && s.eng[o].prog.pwsize ≠ s.eng[a.cand].prog.pwsize
  | _, _ => false

/-- A group swaps its banks at boundary T = the present tick. -/
def swapGroup (g : GrpId) (s : State) : State :=
  let t := (s.tuned g).foldl (fun s e => s.modEng e fun x => { x with bank := !x.bank }) s
  t.modGrp g fun y => { y with copyTo := some (s.clk.tick + 2), copying := true }

/-- Write the shadow array of an engine from an offset on. -/
def Engine.tune (o : Nat) (l : List Half) (x : Engine) : Engine :=
  let x := x.wrotePar (!x.bank) o l.length
  if x.bank then { x with par0 := x.par0.setMany o l } else { x with par1 := x.par1.setMany o l }

def tuneWrite (g : GrpId) (o : Nat) (l : List Half) (s : State) : State :=
  if s.grp[g].copying then { s with fw.heldTune := s.fw.heldTune ++ [(g, o, l)] }
  else (s.tuned g).foldl (fun s e => s.modEng e (Engine.tune o l)) s

/-- The copy of R152 is complete: the shadow equals the live array, then the held writes apply. -/
def copyDone (g : GrpId) (s : State) : State :=
  if s.grp[g].copying then
    let s := (s.tuned g).foldl (fun s e => s.modEng e fun x =>
      let x := x.wrotePar (!x.bank) 0 16384
      if x.bank then { x with par0 := x.par1 } else { x with par1 := x.par0 }) s
    let s := s.modGrp g fun y => { y with copying := false }
    let held := s.fw.heldTune
    held.foldl (fun s h => if h.1 = g then tuneWrite g h.2.1 h.2.2 s else s)
      { s with fw.heldTune := held.filter fun h => h.1 ≠ g }
  else s

/-- The latest boundary that R152 still holds for a member of a swap group. -/
def State.swapWait (s : State) (gs : List GrpId) : Option Word :=
  let l := gs.filterMap fun g => match s.grp[g].copyTo with
    | some t => if 0 < (t - s.clk.tick).toInt then some t else none
    | none => none
  l.foldl (fun m t => match m with | some u => if 0 < (t - u).toInt then some t else m | none => some t) none

/-! ### Start windows (R34) -/

/-- The start window of an engine (R34, R136). -/
def Engine.startTick (tick : Word) (x : Engine) : Engine :=
  { x with pc := BitVec.ofNat 14 x.prog.entry, rpt := 0, flags := 0, issued := 0, stalls := 0, tickLat := tick, bankLat := x.bank,
           events := [], kept := [], stopped := false, req := none }

/-- An audition whose candidate runs no longer waits. -/
def Group.audRuns (a : Audition) (y : Group) : Group := { y with aud := some { a with waiting := false } }

/-! ### Removal, test, rate (R45, R63) -/

/-- Fade a group's rows from given values; the next snapshot holds them by (32 − j)/32 (R69). -/
def fadeFrom (g : GrpId) (v : Vector Word 12) (j : Nat) (s : State) : State :=
  s.modGrp g fun y => { y with fade := some { vals := v, j := j } }

/-- The rows of a group in S_k. -/
def State.groupSnap (s : State) (g : GrpId) : Vector Word 12 := vof fun c => s.mtx.snap.get (288 + 12 * g.val + c.val)

/-- The audition of a group ends because its target left LIVE. -/
def targetLeft (g : GrpId) (s : State) : State :=
  match s.audOf g with
  | some a => if a.use = .restart then s else abortAudition g 4 s
  | none => s

/-- A group loses its owner: the engine becomes SPARE, its blocks are freed. -/
def dropOwner (g : GrpId) (s : State) : State :=
  match s.grp[g].owner with
  | none => s
  | some o =>
    let s := endCrossfade g s
    let s := s.modEng o Engine.retire
    let s := dropTunes g (s.modGrp g fun y => { y with owner := none })
    forIdx 4 (fun t s => s.modTile t fun m => m.freeBlocks (m.tagged (BitVec.ofNat 5 g.val))) s

/-- ENG_REMOVE takes effect: S at this boundary still holds the last outputs, which then fade (R69, log 75); after a faulty tick that fade
has begun with it. -/
def removeGroup (g : GrpId) (s : State) : State :=
  match s.grp[g].owner with
  | none => s
  | some o => fadeFrom g (s.groupSnap g) (boolN s.eng[o].faultDue) (dropOwner g (targetLeft g s))

/-- A FAULTED engine has been read out: TEST, or IDLE when the firmware retires it; its descriptors are cleared, and the blocks that it
still holds are freed (R63, R140, R143). -/
def readOut (e : EngId) (retire : Bool) (s : State) : State :=
  let x := s.eng[e]
  if x.st = .faulted then
    let s := s.modEng e fun x =>
      let y := { x.leave .idle with desc := .replicate 64 .zero, retired := x.retired || retire }
      if retire then y else y.test
    match x.grp with
    | some g =>
      if x.holds then s.modTile (tileOf e) fun m => m.freeBlocks ((m.tagged (BitVec.ofNat 5 g.val)).filter x.reaches) else s
    | none => s
  else s

/-- An engine enters TEST, or is freed by a migration first. -/
def testEngine (e : EngId) (s : State) : State :=
  let x := s.eng[e]
  match x.st with
  | .spare | .idle =>
    if x.retired then s
    else if x.grp ≠ none then s.modEng e fun x => { x with testDue := true }
    else s.modEng e Engine.test
  | .live => match x.grp with
    | some g =>
      let t := s.modEng e fun x => { x with testDue := true }
      if s.grp[g].owner = some e then (migrate g .maintenance t).getD t else t
    | none => s
  | .faulted => readOut e false s
  | .candidate => s.modEng e fun x => { x with testDue := true }
  | .test => s

/-- A LIVE program at a change of the rate of M (R45); one whose last tick had a fault is FAULTED at this boundary instead. -/
def restartRate (budget : Nat) (g : GrpId) (s : State) : State :=
  match s.grp[g].owner with
  | none => s
  | some o =>
    let x := s.eng[o]
    if x.faultDue then s
    else if x.prog.length + x.prog.allow ≤ budget then
      let s := s.modEng o fun x =>
        let y := x.begin .live g
        { y with clearing := true, desc := vmap (fun (d : Desc) => { d with w := 0 }) y.desc }
      s.modTile (tileOf o) fun m =>
        (m.tagged (BitVec.ofNat 5 g.val)).foldl (fun m b => m.clearBlock b) m
    else
      let s := fadeFrom g (s.groupSnap g) 0 (dropOwner g s)
      raise 0x8506 [wordN g.val, 1] s

/-- The engines and auditions at a change of the rate of M. -/
def rateEngines (m : MRate) (s : State) : State :=
  forIdx 16 (fun g s => restartRate m.budget g (endCrossfade g (abortAudition g 7 s))) s

end Sys2Proof.Machine
end

