-- ==== Sys2Proof/Machine/Matrix.lean ====
section
/-! DEFINITION. The routing matrix: gains and ramps, route sets, presence and scaling, evaluation, the check column and matrix
faults (07). -/
namespace Sys2Proof.Machine
open Sys2Proof

/-! ### Crosspoints -/

/-- The key of a crosspoint in Mtx.xp. -/
def xpKey (row col : Nat) : Nat := row * 256 + col

def xpGet (l : List (Nat × Xp)) (k : Nat) : Xp := ((l.find? fun x => x.1 = k).map (·.2)).getD .zero

/-- Store a crosspoint; a list with rising keys keeps them rising, and an entry of zeros is not listed. -/
def xpSet (l : List (Nat × Xp)) (k : Nat) (x : Xp) : List (Nat × Xp) :=
  match l with
  | [] => if x = .zero then [] else [(k, x)]
  | (j, y) :: r =>
    if k < j then (if x = .zero then (j, y) :: r else (k, x) :: (j, y) :: r)
    else if k = j then (if x = .zero then r else (k, x) :: r)
    else (j, y) :: xpSet r k x

/-! ### Ramps (R180, R181) -/

/-- The gain of boundary j of a ramp toward G. -/
def Ramp.gain (r : Ramp) (goal : Int) : Int := r.g0 + ((goal - r.g0) * (r.j + 1)).tdiv r.r

/-- The next gain and what is left of the ramp. -/
def rampStep1 (goal cur : Int) : Option Ramp → Int × Option Ramp
  | none => (cur, none)
  | some r =>
    if r.r ≤ r.j + 1 then (goal, none) else (r.gain goal, some { r with j := r.j + 1 })

/-- A new target G reaches a gain whose stored target was `old`: nothing for the stored target, no ramp for the gain in force,
else a fresh ramp of length n from the gain in force. -/
def newRamp (old goal cur : Int) (n : Nat) (r : Option Ramp) : Option Ramp :=
  if goal = old then r else if goal = cur then none else some { g0 := cur, j := 0, r := n }

/-- The target in force of a crosspoint, and of a column's post-gain. -/
def Xp.goal (x : Xp) (selB : Bool) : Int := if selB then x.b else x.a
def Col.goal (c : Col) (selB : Bool) : Int := if selB then c.b else c.a

/-- A crosspoint target reaches set B or set A. A change due at the very boundary at which the matrix resumes ramps over its own R_c
or R_P (DESIGN CHOICE: R192 gives max(R_c, 480) to the resumption and names no change made with it; log 145). -/
def Xp.target (setB selB : Bool) (v : Int) (n : Nat) (x : Xp) : Xp :=
  let y := if setB then { x with b := v } else { x with a := v }
  if setB = selB then { y with ramp := newRamp (x.goal selB) v x.cur n x.ramp } else y

/-- An applied post-gain target reaches a set; it ramps over n ticks. -/
def Col.targetOver (n : Nat) (setB selB : Bool) (v : Int) (c : Col) : Col :=
  let y := if setB then { c with b := v } else { c with a := v }
  if setB = selB then { y with ramp := newRamp (c.goal selB) v c.cur n c.ramp } else y

/-- It ramps under R_c. -/
def Col.target (setB selB : Bool) (v : Int) (c : Col) : Col := c.targetOver c.rc setB selB v

/-- A ramp toward a goal over n ticks, or none when the gain stands there (R184). -/
def rampTo (goal cur : Int) (n : Nat) : Option Ramp := if goal = cur then none else some { g0 := cur, j := 0, r := n }

/-- The selected set becomes B or A: every gain ramps over R_P (R184). -/
def selectSet (b : Bool) (s : State) : State :=
  if s.mtx.selB = b then s
  else
    { s with mtx.selB := b,
             mtx.xp := s.mtx.xp.map fun x => (x.1, { x.2 with ramp := rampTo (x.2.goal b) x.2.cur s.mtx.rp }),
             mtx.cols := vmap (fun (c : Col) => { c with ramp := rampTo (c.goal b) c.cur s.mtx.rp }) s.mtx.cols }

/-! ### Post-gain offsets (R394) -/

/-- The zone that declares a channel. -/
def State.zoneOf (s : State) (c : ChanId) : Option ZoneId :=
  (idx 16).find? fun z => s.fw.zone[z].on && s.fw.zone[z].chans.getLsbD c.val

/-- The twin raise in force on a channel, in 0.1 dB (R391). -/
def State.twinRaise (s : State) (c : ChanId) : Nat := if s.link.comp.getLsbD c.val then 5 * s.fw.raise else 0

/-- O of a channel in 0.1 dB: the zone's applied noise gain and the twin raise. -/
def State.offset (s : State) (c : ChanId) : Nat :=
  (match s.zoneOf c with | some z => s.fw.zone[z].gain | none => 0) + s.twinRaise c

/-- Nearest integer to g × 10^(o/200), halves up, by its 200th power: the greatest m with (2m − 1)^200 ≤ (2g)^200 × 10^o. -/
def scaledFrom (g o : Nat) : Nat → Nat → Nat
  | 0, m => m
  | k + 1, m =>
    let c := m + 2 ^ k
    scaledFrom g o k (if (2 * c - 1) ^ 200 ≤ (2 * g) ^ 200 * 10 ^ o then c else m)

/-- The applied post-gain for a host target and an offset, and whether it saturated. -/
def applied (g : Int) (o : Nat) : Int × Bool :=
  let m := if o = 0 then g.natAbs else scaledFrom g.natAbs o 17 0
  let n := min m 32767
  (if g < 0 then -(n : Int) else n, decide (32767 < m))

/-- The channel of a column. -/
def chanOf (c : Fin 256) : Option ChanId := if 224 ≤ c.val ∧ c.val < 240 then some (fin 16 (c.val - 224)) else none

def State.colOffset (s : State) (c : Fin 256) : Nat := match chanOf c with | some k => s.offset k | none => 0

/-- The applied post-gains of a channel's column follow its offset, over n ticks or the column's R_c (R335, R394, log 94). -/
def applyOffset (n : Option Nat) (k : ChanId) (s : State) : State :=
  s.modCol (fin 256 (224 + k.val)) fun c =>
    let o := s.offset k
    let n := n.getD c.rc
    (c.targetOver n false s.mtx.selB (applied c.hostA o).1).targetOver n true s.mtx.selB (applied c.hostB o).1

/-- POL_CLAMP for channels whose applied post-gain saturates, once since their offset last changed and one event for a zone; the zone of a
channel that has none is free (R394). -/
def clampEvents (ks : List ChanId) (s : State) : State :=
  let l := ks.filter fun k =>
    let c := s.mtx.cols[fin 256 (224 + k.val)]
    !s.fw.clamped.getLsbD k.val && ((applied c.hostA (s.offset k)).2 || (applied c.hostB (s.offset k)).2)
  let one (s : State) (z : Option ZoneId) : State :=
    let c := l.filter fun k => s.zoneOf k = z
    let pl : List Word := [maskOf c, wordN (c.foldl (fun m k => max m (s.offset k)) 0)]
    if c = [] then s
    else match z with
      | some z => raise 0x8E01 (wordN z.val :: pl) s
      | none => let (n, s) := s.fresh; raise 0x8E01 (Config.freeWord n :: pl) s
  ((idx 16).map some ++ [none]).foldl one { s with fw.clamped := s.fw.clamped ||| (maskOf l).truncate 16 }

/-- The offset of some channels has changed: it is applied, and a saturation is reported anew (R394). -/
def applyOffsets (n : Option Nat) (ks : List ChanId) (s : State) : State :=
  let t := ks.foldl (fun s k => applyOffset n k s) s
  clampEvents ks { t with fw.clamped := t.fw.clamped &&& ~~~((maskOf ks).truncate 16) }

/-! ### Batches (R182, R183) -/

/-- The copy of an entry that a batch entry writes. -/
def BatchEntry.part (e : BatchEntry) : XpPart := if e.kind = 1 then .setB else .setA

/-- Crosspoint entries lose their parity (R190). -/
def upsetXp (l : List (Fin 131072 × XpPart)) (s : State) : State :=
  { s with mtx.parity := s.mtx.parity ++ l.map fun x => (x.1.val, x.2) }

/-- One entry whose checks have passed; while a matrix fault is handled it only enters the targets (R192). -/
def batchEntry (e : BatchEntry) (s : State) : State :=
  let quiet := s.mtx.fault.isSome
  let strip (s : State) : State := if quiet then
      { s with mtx.xp := s.mtx.xp.map fun x => (x.1, { x.2 with ramp := none }),
               mtx.cols := vmap (fun (c : Col) => { c with ramp := none }) s.mtx.cols } else s
  let c := fin 256 e.col
  let k := xpKey e.row e.col
  if e.kind ≤ 1 then
    let n := s.mtx.cols[c].rc
    let x := (xpGet s.mtx.xp k).target (e.kind = 1) s.mtx.selB e.val n
    strip { s with mtx.xp := xpSet s.mtx.xp k x, mtx.parity := s.mtx.parity.filter fun p => p ≠ (k, e.part) }
  else if e.kind ≤ 3 then
    let b := e.kind = 3
    let v := (applied e.val (s.colOffset c)).1
    strip (s.modCol c fun y => (if b then { y with hostB := e.val } else { y with hostA := e.val } : Col).target b s.mtx.selB v)
  else if e.kind = 4 then s.modCol c fun y => { y with rc := e.val.toNat }
  else if e.kind = 5 then
    s.modCol c fun y => { y with mode := if e.val = 0 then .off else if e.val = 1 then .inv else .invSqrt }
  else
    let r := fin 512 e.row
    { s with mtx.rows := vmod s.mtx.rows r fun d =>
        if e.kind = 6 then { d with theta := e.val } else { d with holdMs := e.val.toNat } }

/-- Two entries set the same item. -/
def BatchEntry.same (x y : BatchEntry) : Bool := x.kind = y.kind && x.row = y.row && x.col = y.col

/-- Of the entries that set one item, the last stands (R182). -/
def lastEntries : List BatchEntry → List BatchEntry
  | [] => []
  | e :: l => if l.any e.same then lastEntries l else e :: lastEntries l

/-- A batch takes effect: its ramp lengths govern the ramps that start with it (R181, R182); a post-gain that saturates is reported (R394). -/
def batch (l : List BatchEntry) (s : State) : State :=
  let l := lastEntries l
  let t := ((l.filter fun e => e.kind = 4) ++ l.filter fun e => e.kind ≠ 4).foldl (fun s e => batchEntry e s) s
  let ks := l.filterMap fun e => if e.kind = 2 ∨ e.kind = 3 then chanOf (fin 256 e.col) else none
  if ks = [] then t else clampEvents ks t

/-! ### Presence and scaling (R186 to R188) -/

/-- round(2^31 × 10^(Θ/20)) by bits: the greatest m with (2m − 1)^20 × 10^(−Θ) ≤ 2^640. -/
def threshFrom (nt : Nat) : Nat → Nat → Nat
  | 0, m => m
  | k + 1, m =>
    let c := m + 2 ^ k
    threshFrom nt k (if (2 * c - 1) ^ 20 * 10 ^ nt ≤ 2 ^ 640 then c else m)

def RowDet.amp (d : RowDet) : Nat := threshFrom d.theta.natAbs 32 0

/-- h_r in ticks. -/
def State.holdTicksOf (s : State) (d : RowDet) : Nat := s.msTicks d.holdMs

/-- Row r is present. -/
def State.present (s : State) (r : Fin 512) : Bool :=
  let d := s.mtx.rows[r]
  (s.mtx.hist.take (s.holdTicksOf d)).any fun m => decide (d.amp ≤ (m.get r.val).toInt.natAbs)

/-- n_c: rows with a gain in force into the column that are present. -/
def State.nOf (s : State) (c : Fin 256) : Nat :=
  (s.mtx.xp.filter fun x => x.1 % 256 = c.val && x.2.cur ≠ 0 && s.present (fin 512 (x.1 / 256))).length

/-- φ_c. -/
def phi (mode : ScaleMode) (n : Nat) : Nat :=
  if n = 0 then 16777216
  else match mode with
    | .off => 16777216
    | .inv => (2 * 16777216 + n) / (2 * n)
    | .invSqrt => (isqrt (1125899906842624 / n) + 1) / 2

/-- alpha (Table 07.5). -/
def MRate.alpha : MRate → Nat
  | .m44 => 38000 | .m48 => 34916 | .m88 => 19011 | .m96 => 17467

/-- f_c moves one step toward φ_c. -/
def fStep (f p a : Nat) : Nat :=
  if f < p then f + ((p - f) * a + 16777215) / 16777216
  else if p < f then f - ((f - p) * a + 16777215) / 16777216
  else f

/-! ### Evaluation (R177 to R179, R189) -/

/-- A_c. -/
def colSum (xp : List (Nat × Xp)) (snap : Mem 32) (c : Nat) : Int :=
  xp.foldl (fun a x => if x.1 % 256 = c then a + (snap.get (x.1 / 256)).toInt * x.2.cur else a) 0

/-- y_c before and after its saturation. -/
def colValue (a : Int) (f : Nat) (p : Int) : Int × Int :=
  let y := (2 * (a * f * p) + 4503599627370496) / 9007199254740992
  (y, sat32 y)

/-- The weight of a column: +1 where its bit of the pattern is 1 (DESIGN CHOICE: R189 does not say which value is which; log 12). -/
def weight (p : BitVec 256) (c : Nat) : Int := if p.getLsbD c then 1 else -1

/-- check_k: over rows, by the gains in force. -/
def checkSum (xp : List (Nat × Xp)) (snap : Mem 32) (p : BitVec 256) : Int :=
  xp.foldl (fun a x => a + (snap.get (x.1 / 256)).toInt * (weight p (x.1 % 256) * x.2.cur)) 0

/-- result_k, with the sum by which faulty lanes shift it. -/
def resultSum (sums : Vector Int 256) (p : BitVec 256) (laneErr : Int) : Int :=
  (idx 256).foldl (fun a c => a + weight p c.val * sums[c]) laneErr

/-- Ramps and scale factors take their values for C_k. -/
def rampAll (s : State) : State :=
  let b := s.mtx.selB
  let s : State := { s with
    mtx.xp := s.mtx.xp.map fun x =>
      let r := rampStep1 (x.2.goal b) x.2.cur x.2.ramp
      (x.1, { x.2 with cur := r.1, ramp := r.2 }),
    mtx.cols := vmap (fun (c : Col) =>
      let r := rampStep1 (c.goal b) c.cur c.ramp
      { c with cur := r.1, ramp := r.2 }) s.mtx.cols }
  { s with mtx.cols := vof fun c =>
      let y := s.mtx.cols[c]
      let p := if y.mode = .off then 16777216 else phi y.mode (s.nOf c)
      { y with f := fStep y.f p s.clk.mrate.alpha } }

/-- A parity error on a gain in force or on a selected target is read in this tick (R190). -/
def State.parityRead (s : State) : Bool :=
  s.mtx.parity.any fun p => match p.2 with
    | .cur => true
    | .setA => !s.mtx.selB
    | .setB => s.mtx.selB

/-- C_{k−1} × (32 − j) / 32. -/
def fadedCols (f : MtxFault) : Vector Word 256 :=
  if 32 ≤ f.j then .replicate 256 0 else vmap (fun v => scale32 v (32 - f.j) 32) f.held

/-- The columns of a tick by the factor of a realignment (R304). -/
def scaledCols (f : Rat) (c : Vector Word 256) : Vector Word 256 := if f = 1 then c else vmap (fun v => scaleQ v f) c

/-- The bit of the quiet-state causes that a second matrix fault sets. -/
def quietMatrix : BitVec 7 := 8

/-- A matrix fault found in the present tick: C_k is discarded and the fade of C_{k−1} is delivered (R191, R192). -/
def matrixFault (kind : Nat) (held : Vector Word 256) (s : State) : State :=
  let again := s.mtx.resumed.any (s.lately 60)
  let f : MtxFault := { held := held, j := 0, second := again }
  let s := raise 0x8401 [wordN (if again then 3 else kind), s.clk.tick]
    { s with mtx.fault := some f, mtx.raw := fadedCols f }
  if again then setQuiet quietMatrix s else s

/-- The matrix evaluates C_k, or continues the fade of a fault; the last unscaled C is in mtx.raw. -/
def evaluate (laneErr : Int) (s : State) : State :=
  match s.mtx.fault with
  | some f =>
    let f := { f with j := min 32 (f.j + 1) }
    { s with mtx.fault := some f, mtx.raw := fadedCols f }
  | none =>
    let s := rampAll s
    let sums : Vector Int 256 := vof fun c => colSum s.mtx.xp s.mtx.snap c.val
    if checkSum s.mtx.xp s.mtx.snap s.mtx.pattern ≠ resultSum sums s.mtx.pattern laneErr then matrixFault 0 s.mtx.raw s
    else if s.parityRead then matrixFault 1 s.mtx.raw s
    else
      let ys : Vector (Int × Int) 256 := vof fun c => colValue sums[c] s.mtx.cols[c].f s.mtx.cols[c].cur
      let full := (idx 256).filter fun c => (ys[c]).1 ≠ (ys[c]).2
      let t : State := { s with mtx.raw := vmap (fun (y : Int × Int) => BitVec.ofInt 32 y.2) ys }
      full.foldl (fun s c =>
        let old := s.mtx.cols[c].sat
        cntSat (cntId 7 c.val 0) old (satInc old) (s.modCol c fun y => { y with sat := satInc old })) t

/-! ### Rows of the matrix -/

/-- CHECK_PATTERN_REPLACE (R189). -/
def execCheckPatternReplace (pattern : BitVec 256) (s : State) : Out := .next { s with mtx.pattern := pattern }

/-- MATRIX_PARITY_SCAN: the background read finds a parity error of the set that is not selected (R190). -/
def execMatrixParityScan (s : State) : Out :=
  done <|
    if s.mtx.fault = none ∧ s.mtx.parity ≠ [] then
      let s := matrixFault 1 s.mtx.rawPrev s
      { s with mtx.col := scaledCols s.clk.factor s.mtx.raw }
    else s

/-- MATRIX_RESUME: after the fade, every gain ramps from zero (R192). -/
def execMatrixResume (s : State) : Out :=
  done <| match s.mtx.fault with
    | none => s
    | some f =>
      if 32 ≤ f.j ∧ !f.second then
        let b := s.mtx.selB
        raise 0x8401 [2, s.clk.tick]
          { s with mtx.fault := none, mtx.parity := [], mtx.hist := [], mtx.resumed := some s.clk.now,
                   mtx.xp := s.mtx.xp.map fun x =>
                     let n := max s.mtx.cols[fin 256 (x.1 % 256)].rc 480
                     (x.1, { x.2 with cur := 0, ramp := rampTo (x.2.goal b) 0 n }),
                   mtx.cols := vmap (fun (c : Col) =>
                     { c with cur := 0, ramp := rampTo (c.goal b) 0 (max c.rc 480), f := 16777216 }) s.mtx.cols }
      else s

end Sys2Proof.Machine
end

