-- ==== Sys2Proof/WellFormed.lean ====
section
/-! DEFINITION. The checks on the operands of a command that no type carries: what no event of the hardware can be. A meaning
whose check fails ends in the fault illFormed. -/
namespace Sys2Proof

/-- NOP carries code 0x00 or an unassigned code (Table 13.3). -/
def wfNop (cmd : Byte) : Bool := cmd = 0 || 4 ≤ cmd.toNat

/-- WRITE brings every word that its clocks complete (R344). -/
def wfWrite (data : List Word) (clocks : Nat) : Bool := (clocks - 24) / 32 ≤ data.length

/-- A discarded chain frame is no multiple of 64 clocks, or ends within its first 64 (R356). -/
def wfDiscard (clocks : Nat) : Bool := clocks % 64 ≠ 0 || clocks = 0

end Sys2Proof
end

