-- ==== Sys2Proof/Machine/Port.lean ====
section
/-! DEFINITION. Serial and AES3 ports, saddles and microphones: their rows of the table and what they do at a boundary (08,
07 R194 to R199, 17 R444). -/
namespace Sys2Proof.Machine
open Sys2Proof

/-! ### Frames and slots (R206, R208, R220) -/

def isAes (p : PortId) : Bool := 8 ≤ p.val

/-- S in force: I2S and LJ use 2 (Table 08.2). -/
def PortCfg.s (c : PortCfg) : Nat := match c.mode with | .tdm => c.slots | .i2s | .lj => 2

/-- The bits of a frame, L (Table 08.3). -/
def PortCfg.len (c : PortCfg) : Nat := c.s * c.width

/-- Sampling edges from the frame's start to its first data bit (Table 08.3). -/
def PortCfg.firstBit (c : PortCfg) : Nat := match c.mode with | .tdm => c.delay | .i2s => 1 | .lj => 0

/-- FS stands at the level that marks slot 0 (Table 08.3, log 125). -/
def PortCfg.marks (c : PortCfg) (fs : Bool) : Bool := match c.mode with | .tdm | .lj => fs ≠ c.fspolLow | .i2s => fs = c.fspolLow

/-- The first edge after a given level, counted from n, at which a frame starts (R206). -/
def PortCfg.startFrom (c : PortCfg) : Bool → Nat → List (Bool × Bool × Bool) → Option Nat
  | _, _, [] => none
  | prev, n, e :: l => if c.marks e.1 && !prev then some n else c.startFrom (c.marks e.1) (n + 1) l

/-- Sampling edges from the start of a frame to the start of the next. -/
def PortCfg.nextStart (c : PortCfg) (f : RxFrame) : Option Nat := c.startFrom true 1 (f.edges.drop 1)

/-- The word of slot i among the bits that a line brought from the frame's start on, MSB first (R206). -/
def PortCfg.slotWord (c : PortCfg) (bits : List Bool) (i : Nat) : Word :=
  ((bits.drop (c.firstBit + i * c.width)).take c.width).foldl (fun a b => 2 * a + wordN (boolN b)) 0

/-- Every slot of a line. -/
def PortCfg.lineWords (c : PortCfg) (bits : List Bool) : List Word := (List.range c.s).map (c.slotWord bits)

/-- The sample of a subframe, time slots 4 to 27, LSB first (R228). -/
def subSample (x : SubFrame) : Word := (x.slots.truncate 24).zeroExtend 32

/-- V, U and C of a subframe. -/
def subVuc (x : SubFrame) : Bool × Bool × Bool := (bit x.slots 24, bit x.slots 25, bit x.slots 26)

/-- A word has an even number of ones. -/
def even (w : BitVec n) : Bool := !(List.range n).foldl (fun p i => p ^^ bit w i) false

/-- The slot words that a frame brings on each line; an AES frame brings channels A and B. -/
def frameLines (p : PortId) (c : PortCfg) (f : RxFrame) : List Word × List Word :=
  if isAes p then (f.subs.map subSample, [])
  else (c.lineWords (f.edges.map fun e => e.2.1), c.lineWords (f.edges.map fun e => e.2.2))

/-- A good frame: exactly L sampling edges to the next start, or two subframes with their preambles in place (R207, R224). -/
def frameGood (p : PortId) (c : PortCfg) (f : RxFrame) : Bool :=
  if isAes p then (match f.subs with | [a, b] => !f.bmcBad && a.pre ≠ .y && b.pre = .y | _ => false)
  else c.nextStart f = some c.len

/-- Glitches in a frame that is not good: one, and without a start for 2 × L edges one more every further L, with none more for the start that
comes after them (R207; the model's choice, log 145). -/
def frameGlitches (p : PortId) (c : PortCfg) (f : RxFrame) : Nat :=
  let n := (c.nextStart f).getD (f.edges.length - 1)
  if isAes p then 1 else if 2 * c.len ≤ n then 1 + (n - 2 * c.len) / c.len else if (c.nextStart f).isSome then 1 else 0

/-- The saddle of a bound port. -/
def Port.saddle (x : Port) : Option SadId := match x.cfg.binding with | .m => none | .saddle k _ _ => some k

/-- The enabled slots of two lines in compaction order. -/
def pick (m0 m1 : Word) (n : Nat) (f : Bool → Nat → α) : List α :=
  ((List.range n).filter (bit m0)).map (f false) ++ ((List.range n).filter (bit m1)).map (f true)

/-- Enabled slots of a pair of masks. -/
def slotsOn (m0 m1 : Word) (n : Nat) : Nat := (pick m0 m1 n fun _ i => i).length

/-- A received slot word in Q1.31. -/
def inSlot (w : Nat) (v : Word) : Word := v <<< (32 - w)

/-- A column value as a slot word of W bits. -/
def outSlot (w : Nat) (y : Word) : Word :=
  if w = 32 then y
  else
    let r : Int := (y.toInt + 2 ^ (31 - w)) / 2 ^ (32 - w)
    BitVec.ofNat 32 ((max (-(2 ^ (w - 1))) (min (2 ^ (w - 1) - 1) r)) % 2 ^ w).toNat

/-- The slot words of a line: enabled slots take the data in order, others the idle value. -/
def txLine (idle : Option Word) (mask : Word) : List Nat → List Word → List (Option Word) × List Word
  | [], d => ([], d)
  | i :: l, d =>
    if bit mask i then
      let r := txLine idle mask l (d.drop 1)
      (some (d.headD 0) :: r.1, r.2)
    else
      let r := txLine idle mask l d
      (idle :: r.1, r.2)

/-- TXIDLE (R209). -/
def PortCfg.idle (c : PortCfg) : Option Word := if c.txHiz then none else some 0

/-- Both lines carry the given words in the enabled slots (R209). -/
def Port.send (d : List Word) (x : Port) : Port :=
  let l := List.range x.cfg.s
  let r0 := txLine x.cfg.idle x.outNow.1 l d
  { x with tx0 := r0.1, tx1 := (txLine x.cfg.idle x.outNow.2 l r0.2).1 }

/-- Both lines follow TXIDLE in every slot. -/
def Port.sendIdle (x : Port) : Port :=
  { x with tx0 := List.replicate x.cfg.s x.cfg.idle, tx1 := List.replicate x.cfg.s x.cfg.idle }

/-- The port drives DO0 and DO1 on the rising edge of BCK, the one opposite BCKEDGE (R209). -/
def PortCfg.drivesRise (c : PortCfg) : Bool := c.fall

/-- Bit j of a slot word, MSB first; none is high impedance. -/
def PortCfg.slotBit (c : PortCfg) (v : Option Word) (j : Nat) : Option Bool := v.map fun w => bit w (c.width - 1 - j)

/-- The last bit of a frame that a line carried whole; what was not sent follows TXIDLE. -/
def Port.endBit (x : Port) (l : List (Option Word)) : Option Bool :=
  if l.length = x.cfg.s then x.cfg.slotBit (l.getLastD x.cfg.idle) (x.cfg.width - 1) else x.cfg.slotBit x.cfg.idle 0

/-- A frame ends: its last bits stay until the first bit of the next. -/
def Port.keepEnd (x : Port) : Port := { x with txEnd := (x.endBit x.tx0, x.endBit x.tx1) }

/-- What a transmit line carries for the sampling edge that comes e edges after the frame's start, with the layout of the receive side
(R209): before its first bit the last of the frame before, past its slots TXIDLE. -/
def Port.lineBit (x : Port) (line1 : Bool) (e : Nat) : Option Bool :=
  let j := e - x.cfg.firstBit
  if e < x.cfg.firstBit then (if line1 then x.txEnd.2 else x.txEnd.1)
  else x.cfg.slotBit ((if line1 then x.tx1 else x.tx0).getD (j / x.cfg.width) x.cfg.idle) (j % x.cfg.width)

def Port.nOut (x : Port) : Nat := slotsOn x.outNow.1 x.outNow.2 x.cfg.s
def Port.nIn (x : Port) : Nat := slotsOn x.masks.in0 x.masks.in1 x.cfg.s

/-! ### Fades of a port (R213, R221 to R223) -/

/-- Rows and transmit data fade to zero in n steps from the factors in force. -/
def Port.fall (n : Nat) (x : Port) : Port :=
  { x with fade := x.fade.move 0 (x.fade.v / n), txFade := x.txFade.move 0 (x.txFade.v / n) }

/-- A mask change lowers the factors in force by 1/64 each step (R221, R222). -/
def Port.lower (x : Port) : Port := { x with fade := x.fade.move 0 (1/64), txFade := x.txFade.move 0 (1/64) }

/-- Both factors at rest. -/
def Port.rest (v : Rat) (x : Port) : Port := { x with fade := .at v, txFade := .at v }

/-! ### Saddles (R195 to R199) -/

/-- A running saddle mutes, with its event (R197). -/
def saddleMute (k : SadId) (cause : Nat) (s : State) : State :=
  let x := s.sad[k]
  if x.st = .running then
    raise 0x8403 [wordN k.val, wordN cause]
      (s.modSad k fun x => { x with st := .muted, cause := cause, mutes := satInc x.mutes, fade := x.fade.move 0 (x.fade.v / 48) })
  else s.modSad k fun x => { x with cause := cause }

/-- A saddle mutes for its port or for the rate of M: it has to measure again before it locks (R197, R199). -/
def saddleDrop (k : SadId) (cause : Nat) (s : State) : State := (saddleMute k cause s).modSad k fun x => { x with est := none }

/-- The saddle of a bound port mutes. -/
def portSaddleMute (p : PortId) (cause : Nat) (s : State) : State :=
  match s.port[p].saddle with | some k => saddleDrop k cause s | none => s

/-- The nominal ratio of a code, over 12. -/
def ratio12 (c : BitVec 3) : Nat :=
  if c = 0 then 2 else if c = 1 then 3 else if c = 2 then 4 else if c = 3 then 6 else if c = 4 then 12 else if c = 5 then 24 else 48

/-- A locked saddle is within ±50 ppm of its ratio (R197). -/
def locked (c : BitVec 3) (est : Nat) : Bool :=
  let n : Int := ratio12 c * 16777216
  decide (((12 * est : Int) - n).natAbs * 20000 ≤ n.natAbs)

/-- An estimate from 1/6 to 4 (R198). -/
def inReach (est : Nat) : Bool := 16777216 ≤ 6 * est && est ≤ 4 * 16777216

/-- A step of more than 0.1 % between two windows (R198). -/
def stepped (old est : Nat) : Bool := decide (old < 1000 * ((est : Int) - old).natAbs)

/-- The cause for which a window mutes a saddle. -/
def Saddle.fault (x : Saddle) (est : Nat) : Option Nat :=
  if x.tracking then
    if !inReach est then some 2
    else match x.est with
      | some old => if stepped old est then some 1 else none
      | none => none
  else if locked x.ratio est then none else some 0

/-- SADDLE_RATE_WINDOW (R197, R198): a ratio out of range raises its event although the saddle is muted. -/
def execSaddleRateWindow (k : SadId) (estimate : Nat) (s : State) : Out :=
  done <|
    let x := s.sad[k]
    if x.st = .unbound then s
    else
      let t := s.modSad k fun x => { x with est := some estimate }
      match x.fault estimate with
      | none => t
      | some c =>
        if c = 2 ∧ x.st = .muted ∧ x.cause ≠ 2 then raise 0x8403 [wordN k.val, 2] (saddleMute k 2 t)
        else saddleMute k c t

/-- SADDLE_RELOCK: the port is in RUN and a window since the mute has found the ratio in range; the saddle ramps in over 480 ticks
(R197 to R199). -/
def execSaddleRelock (k : SadId) (s : State) : Out :=
  done <|
    let x := s.sad[k]
    let ready := (match x.port with | some p => decide (s.port[p].st = .run) | none => false)
      && (match x.est with | some e => if x.tracking then inReach e else locked x.ratio e | none => false)
    if x.st = .muted ∧ ready then
      raise 0x8403 [wordN k.val, wordN (x.cause + 256)]
        (s.modSad k fun x => { x with st := .running, fade := x.fade.move 1 (1/480) })
    else s

/-- A frame in the unit in which a saddle counts: every ratio of Table 07.7 and every estimate is a whole number of units a tick. -/
def frameUnit : Nat := 201326592

/-- Units of a frame that pass in a tick: the exact ratio of a locked saddle, the estimate of a tracking one (R196 to R198). -/
def Saddle.pace (x : Saddle) : Nat := if x.tracking then 12 * x.est.getD 16777216 else 16777216 * ratio12 x.ratio

/-- The added delay in ticks, the same from a lock to the next mute (Table 07.8). -/
def Saddle.delay (x : Saddle) : Rat := if x.tracking then near (Config.saddleDelay x.mutes.toNat) 128 2 else 96

/-- Units of clk.now in a tick. -/
def State.tickUnits (s : State) : Nat := s.clk.mrate.cycles * timeUnit s.clk.family

/-- Ticks since a time. -/
def State.ticksSince (s : State) (t : Nat) : Rat := ((s.clk.now : Int) - t : Int) / (s.tickUnits : Rat)

/-- Ticks of a frame. -/
def Saddle.period (x : Saddle) : Rat := (frameUnit : Rat) / (x.pace : Rat)

/-- The filtered value of samples that lie back by the given ticks, centred on a point (R196). -/
def resample (tap : Rat → Rat) (centre : Rat) (l : List (Word × Rat)) : Word :=
  BitVec.ofInt 32 (sat32 (roundHalfUp (l.foldl (fun a x =>
    a + x.1.toInt * tap (if x.2 < centre then centre - x.2 else x.2 - centre)) 0)))

/-- The enabled receive slots of a frame in compaction order (R220). -/
def Port.compact (x : Port) (f : List Word × List Word) : List Word :=
  pick x.masks.in0 x.masks.in1 x.cfg.s fun line i => if line then f.2.getD i 0 else f.1.getD i 0

/-- The factor of the i-th row of a port: its fade, and that of the AES channel (R223, R231). -/
def Port.rowFade (p : PortId) (x : Port) (i : Nat) : Rat :=
  x.fade.v * (if isAes p then (x.aes[fin 2 (((List.range 2).filter (bit x.masks.in0)).getD i 0)]).fade.v else 1)

/-- Channel i of a saddle before its fades: the frames taken, resampled to the boundary by the times at which they were complete, so that the
wait in the elastic buffer is part of the delay (R195, R196, log 152). -/
def State.saddleOut (s : State) (x : Saddle) (y : Port) (i : Nat) : Word :=
  resample (Config.saddleIn (x.pace / 12)) x.delay (x.rxHist.map fun f => ((y.compact f.2).getD i 0, s.ticksSince f.1))

/-- Channel j of a frame that starts after some ticks: the columns taken in, resampled to its start (R195, R196, log 152). -/
def Saddle.frame (x : Saddle) (wait : Rat) (j : Nat) : Word :=
  resample (Config.saddleOut (x.pace / 12)) (x.delay - wait)
    (((List.range x.txHist.length).zip x.txHist).map fun c => (c.2[fin 2 j], (c.1 : Rat)))

/-- Frames to take from a receive buffer of len when n are due, so that it stays near 4 (R217). -/
def pull (n len : Nat) : Nat := if len = 0 then n else if len < n + 3 then n - 1 else if n + 5 < len then n + 1 else n

/-- Frames to put into a transmit buffer of len when n are due, so that it stays near 4 (R217). -/
def push (n len : Nat) : Nat := if 8 ≤ len then n else if 5 < len + n then n - 1 else if len + n < 3 then n + 1 else n

/-! ### States of a port (R210, R484) -/

def PortState.code : PortState → Nat
  | .off => 0 | .wait => 1 | .run => 2 | .stopping => 3 | .lost => 4

/-- The source that the frames of a port give. -/
def portSrc (p : PortId) : Option RefSrc := if p = 0 then some .sap0 else if p = 8 then some .aes0 else none

/-- A change of state with its event; a port that leaves RUN takes the source of its follow loop with it (R286). -/
def portTo (p : PortId) (st : PortState) (cause : Nat) (s : State) : State :=
  let old := s.port[p].st
  let s := raise 0x8301 [wordN p.val, wordN (old.code + 16 * st.code + 256 * cause)] (s.modPort p fun x => { x with st := st })
  match portSrc p with
  | some r => if old = .run ∧ st ≠ .run then loseSource r s else s
  | none => s

/-- What a port holds no longer once it leaves RUN. -/
def Port.idleBufs (x : Port) : Port :=
  { x with good := 0, toRun := false, rxBuf := [], rxAt := [], txBuf := [], rxReady := false, txReady := false, txTail := false, glitchRun := 0,
           overdue := 0, loop := false, loopOff := false, blockOn := false }

/-- Entry to LOST: the rows fade over 1 ms from the factor in force (R223, R224, R226). -/
def portLost (p : PortId) (cause : Nat) (s : State) : State :=
  let x := s.port[p]
  let n : Nat := s.clk.mrate.hz / 1000
  let c := satInc x.lostCnt
  let s := s.modPort p fun x => { x.idleBufs.fall n with lostCnt := c }
  portSaddleMute p 3 (cntSat (cntId 4 p.val 0) x.lostCnt c (portTo p .lost cause s))

/-- More than 4 slips in one direction within 1 s send a port in domain M through LOST to WAIT (R224). -/
def stormCheck (p : PortId) (s : State) : State :=
  let x := s.port[p]
  if x.st = .run ∧ x.inM ∧ (4 < x.rxSlips.length ∨ 4 < x.txSlips.length) then portTo p .wait 8 (portLost p 7 s) else s

/-- Count n receive slips, or one transmit slip (R218). -/
def rxSlip (p : PortId) (n : Nat) (s : State) : State :=
  let x := s.port[p]
  let c := satAdd x.rxSlip n
  stormCheck p (cntSat (cntId 1 p.val 0) x.rxSlip c
    (s.modPort p fun x => { x with rxSlip := c, rxSlips := List.replicate n s.clk.now ++ x.rxSlips.filter (s.lately 1) }))

def txSlip (p : PortId) (s : State) : State :=
  let x := s.port[p]
  let c := satInc x.txSlip
  stormCheck p (cntSat (cntId 2 p.val 0) x.txSlip c
    (s.modPort p fun x => { x with txSlip := c, txSlips := s.clk.now :: x.txSlips.filter (s.lately 1) }))

/-! ### A saddle at a boundary (R196, R217) -/

/-- The saddle takes n frames from the receive buffer, each with the time at which it was complete; one that is not there is an underrun slip
that repeats the last, a period later (R217). -/
def saddleTake (k : SadId) (p : PortId) : Nat → State → State
  | 0, s => s
  | n + 1, s =>
    let y := s.port[p]
    let x := s.sad[k]
    let late : Nat := ((x.rxHist.map (·.1)).headD s.clk.now) + (x.period * (s.tickUnits : Rat)).floor.toNat
    let t := match y.rxBuf with | _ :: _ => y.rxAt.headD s.clk.now | [] => late
    let s := match y.rxBuf with
      | f :: r => s.modPort p fun y => { y with last := f, rxBuf := r, rxAt := y.rxAt.drop 1 }
      | [] => rxSlip p 1 s
    saddleTake k p n (s.modSad k fun x => { x with rxHist := ((t, s.port[p].last) :: x.rxHist).take 1040 })

/-- A frame enters the transmit buffer; a full one is an overrun slip that discards the oldest (R217). -/
def saddlePut (p : PortId) (d : List Word) (s : State) : State :=
  if 8 ≤ s.port[p].txBuf.length then txSlip p (s.modPort p fun y => { y with txBuf := y.txBuf.drop 1 ++ [d] })
  else s.modPort p fun y => { y with txBuf := y.txBuf ++ [d] }

/-- The receive direction of a port that runs; taking begins once the buffer holds 4 frames. -/
def saddleRx (k : SadId) (p : PortId) (s : State) : State :=
  let y := s.port[p]
  if y.rxReady then
    let a := s.sad[k].rxAcc + s.sad[k].pace
    let s := s.modSad k fun x => { x with rxAcc := a % frameUnit }
    saddleTake k p (pull (a / frameUnit) y.rxBuf.length) s
  else s.modPort p fun y => { y with rxReady := 4 ≤ y.rxBuf.length }

/-- Ticks until a frame starts that enters the transmit buffer now: those before it, and what is left of the one that runs. -/
def State.txWait (s : State) (x : Saddle) (y : Port) : Rat := (y.txBuf.length : Rat) * x.period + max 0 (x.period - s.ticksSince y.txAt)

/-- The transmit direction: the frames due, or at first 4 frames, with both columns; a muted saddle sends zeros (R197). -/
def saddleTx (k : SadId) (p : PortId) (s : State) : State :=
  let y := s.port[p]
  let x := s.sad[k]
  let a := x.txAcc + x.pace
  let m := if y.txReady then push (a / frameUnit) y.txBuf.length else 4 - y.txBuf.length
  let s := (s.modSad k fun x => { x with txAcc := a % frameUnit }).modPort p fun y => { y with txReady := true }
  (List.range m).foldl (fun s _ =>
    saddlePut p ((List.range 2).map fun j => if x.st = .running then x.frame (s.txWait x s.port[p]) j else 0) s) s

/-- A saddle at a boundary: its rows for S_k, its columns of C_(k−1), and the buffers of its port (R196, R217). -/
def saddleBoundary (k : SadId) (s : State) : State :=
  match s.sad[k].port with
  | none => s.modSad k fun x => { x with out := .replicate 4 0 }
  | some p =>
    let inp : Vector Word 2 := vof fun i => s.mtx.col[fin 256 (240 + 2 * k.val + i.val)]
    let s := s.modSad k fun x => { x with fade := x.fade.tick, inp := inp, txHist := (inp :: x.txHist).take 260 }
    let st := s.port[p].st
    let s := if st = .run ∨ st = .stopping then saddleTx k p (saddleRx k p s) else s
    let y := s.port[p]
    s.modSad k fun x => { x with out := vof fun i =>
      if i.val < y.nIn ∧ x.fade.v ≠ 0 then scaleQ (s.saddleOut x y i.val) (x.fade.v * y.rowFade p i.val) else 0 }

/-! ### AES channels (R228 to R231) -/

def modAes (p : PortId) (c : Fin 2) (f : AesCh → AesCh) (s : State) : State :=
  s.modPort p fun x => { x with aes := vmod x.aes c f }

/-- A block marks audio: bit 1 of byte 0 is 0. -/
def marksAudio (b : Vector Byte 24) : Bool := !bit b[0] 1

/-- Mute a channel, with its cause. -/
def aesMute (p : PortId) (c : Fin 2) (cause : Nat) (s : State) : State :=
  if (s.port[p].aes[c]).muted then s
  else raise 0x8306 [wordN p.val, wordN c.val, wordN cause]
    (modAes p c (fun a => { a with muted := true, goodRun := 0, fade := a.fade.move 0 (a.fade.v / 64) }) s)

/-- Unmute after 192 frames with V = 0 and an accepted block that marks audio: the last one accepted, which may be older than the mute
(the model's choice, log 145). -/
def aesUnmute (p : PortId) (c : Fin 2) (s : State) : State :=
  let a := s.port[p].aes[c]
  if a.muted ∧ 192 ≤ a.goodRun ∧ (a.status.map marksAudio).getD false then
    raise 0x8306 [wordN p.val, wordN c.val, 2]
      (modAes p c (fun a => { a with muted := false, fade := a.fade.move 1 (1/64) }) s)
  else s

/-- The bits of a block: a Z preamble ends the block before it, which is captured when it had 192 frames, and begins one; a frame
without it after the 192nd ends the capture (R229). -/
def AesCh.capture (z : Bool) (b : Bool × Bool × Bool) (a : AesCh) : AesCh :=
  if z then { a with cap := [b], full := if a.cap.length = 192 then some a.cap.reverse else a.full }
  else { a with cap := if a.cap = [] ∨ 192 ≤ a.cap.length then [] else b :: a.cap }

/-- A subframe: its sample unless the parity fails, its V bit, and its bits for the block (R228 to R231). -/
def aesSubframe (p : PortId) (c : Fin 2) (z : Bool) (f : SubFrame) (s : State) : State :=
  let s := modAes p c (AesCh.capture z (subVuc f)) s
  let a := s.port[p].aes[c]
  let vBit := bit f.slots 24
  let s := if even f.slots then modAes p c (fun a => { a with sample := inSlot 24 (subSample f) }) s
    else
      let n := satInc a.parErr
      cntSat (cntId 5 p.val c.val) a.parErr n (modAes p c (fun a => { a with parErr := n }) s)
  let s := modAes p c (fun a =>
    { a with vRun := if vBit then min 9 (a.vRun + 1) else 0, goodRun := if vBit then 0 else min 192 (a.goodRun + 1) }) s
  let s := if 8 < (s.port[p].aes[c]).vRun then aesMute p c 1 s else s
  aesUnmute p c s

/-- Feed one bit into the channel-status CRC, x^8 + x^4 + x^3 + x^2 + 1 (log 33). -/
def crccBit (r : Byte) (b : Bool) : Byte := if (bit r 7) ^^ b then (r <<< 1) ^^^ 0x1D else r <<< 1

/-- The CRCC of bytes 0 to 22, bits in order of transmission, as byte 23 carries it. -/
def crcc (b : Vector Byte 24) : Byte :=
  let r := (b.toList.take 23).foldl (fun r x => (List.range 8).foldl (fun r i => crccBit r (bit x i)) r) 0xFF
  BitVec.ofNat 8 ((List.range 8).foldl (fun n i => n + (if bit r (7 - i) then 2 ^ i else 0)) 0)

/-- Bytes packed four to a word, byte 0 lowest. -/
def packBytes (l : List Byte) (n : Nat) : List Word :=
  (List.range n).map fun i => wordN ((List.range 4).foldl (fun a j => a + (l.getD (4 * i + j) 0).toNat <<< (8 * j)) 0)

/-- A list of bits as a number, the first lowest. -/
def bitsNat : List Bool → Nat
  | [] => 0
  | b :: l => boolN b + 2 * bitsNat l

/-- The channel status of a captured block: byte 0 comes from the first frames, each byte LSB first (R229). -/
def statusOf (b : List (Bool × Bool × Bool)) : Vector Byte 24 :=
  vof fun k => BitVec.ofNat 8 (bitsNat (((b.map fun x => x.2.2).drop (8 * k.val)).take 8))

/-- The accepted channel status of a block (R230, R231). -/
def acceptStatus (p : PortId) (c : Fin 2) (status : Vector Byte 24) (s : State) : State :=
  let a := s.port[p].aes[c]
  if bit status[0] 0 ∧ status[23] ≠ 0 ∧ status[23] ≠ crcc status then
    let n := satInc a.crcErr
    cntSat (cntId 6 p.val c.val) a.crcErr n (modAes p c (fun a => { a with crcErr := n }) s)
  else
    let s := modAes p c (fun a => { a with status := some status }) s
    let s := if a.status = some status then s
      else raise 0x8305 (wordN (p.val + 256 * c.val) :: packBytes status.toList 6) s
    if marksAudio status then aesUnmute p c s else aesMute p c 0 s

/-- AES_BLOCK_CAPTURE: the whole block of a channel (R229 to R231). -/
def execAesBlockCapture (p : PortId) (c : Fin 2) (s : State) : Out :=
  done <|
    match isAes p, (s.port[p].aes[c]).full with
    | true, some b =>
      acceptStatus p c (statusOf b) (modAes p c (fun a =>
        { a with full := none, user := BitVec.ofNat 192 (bitsNat (b.map fun x => x.2.1)),
                 validity := BitVec.ofNat 192 (bitsNat (b.map fun x => x.1)) }) s)
    | _, _ => s

/-! ### Received frames -/

/-- The frame begins with a Z preamble. -/
def zPre (f : RxFrame) : Bool := match f.subs with | a :: _ => a.pre = .z | [] => false

/-- A block of received frames begins (R233, R234). -/
def blockStart (p : PortId) (stampAt : Int) (no : Word) (s : State) : State :=
  let t := s.clk.sysCnt + BitVec.ofInt 64 stampAt
  let s := s.modPort p fun x => { x with blockOn := true, blockNo := no, blockPos := 1, stamp := t }
  let x := s.port[p]
  if x.cfg.stampDiv ≠ 0 ∧ no.toNat % x.cfg.stampDiv = 0 then
    raise 0x8304 [wordN p.val, no, t.truncate 32, (t >>> 32).truncate 32, if x.inM then s.clk.tick + 1 else 0] s
  else s

/-- A frame of the blocks of R233. -/
def blockFrame (p : PortId) (f : RxFrame) (s : State) : State :=
  let x := s.port[p]
  if !x.blockOn then (if isAes p ∧ !zPre f then s else blockStart p f.stampAt 0 s)
  else if x.cfg.block ≤ x.blockPos then blockStart p f.stampAt (x.blockNo + 1) s
  else s.modPort p fun x => { x with blockPos := x.blockPos + 1 }

/-- Queue a frame for hand-over; the elastic buffer of a bound port holds 8 (R215, R217). -/
def pushFrame (p : PortId) (f : List Word × List Word) (s : State) : State :=
  let x := s.port[p]
  if x.inM then s.modPort p fun x => { x with rxBuf := x.rxBuf ++ [f] }
  else if 8 ≤ x.rxBuf.length then
    rxSlip p 1 (s.modPort p fun x => { x with rxBuf := x.rxBuf.drop 1 ++ [f], rxAt := x.rxAt.drop 1 ++ [s.clk.now] })
  else s.modPort p fun x => { x with rxBuf := x.rxBuf ++ [f], rxAt := x.rxAt ++ [s.clk.now] }

/-- The frame before the one that completes now. -/
def Port.previous (x : Port) : List Word × List Word := x.rxBuf.getLastD x.last

/-- The frame's words in Q1.31; AES takes the channels' samples after the parity check. -/
def frameWords (p : PortId) (f : RxFrame) (s : State) : List Word × List Word :=
  let c := s.port[p].cfg
  if isAes p then ([(s.port[p].aes[0]).sample, (s.port[p].aes[1]).sample], [])
  else
    let l := frameLines p c f
    (l.1.map (inSlot c.width), l.2.map (inSlot c.width))

/-- The loop runs: ordered, and the rows have faded (R444). -/
def Port.looping (x : Port) : Bool := x.loop && x.fade.v = 0

/-- A slot word on a line differs from the one sent in an enabled slot. -/
def lineErr (mask : Word) (sent : List (Option Word)) (got : List Word) : Bool :=
  (List.range sent.length).any fun i => bit mask i && sent.getD i none ≠ some (got.getD i 0)

/-- The loop test judges a frame, and ends at its boundary when it was ordered off (R444). -/
def loopFrame (p : PortId) (f : RxFrame) (s : State) : State :=
  let x := s.port[p]
  if x.loop then
    let l := frameLines p x.cfg f
    let bad := x.looping && (!frameGood p x.cfg f || lineErr x.outNow.1 x.tx0 l.1 || lineErr x.outNow.2 x.tx1 l.2)
    let s := s.modPort p fun x => { x with loopErr := x.loopErr || bad }
    if x.loopOff then
      portTo p .run (if x.loopErr || bad then 0x41 else 0x40) (s.modPort p fun x => { x with loop := false, loopOff := false })
    else s
  else s

/-- The transmit frame in progress is cut by a frame that starts n edges after it: what has not been sent is not sent (Table 08.7). An
AES port in domain M sends by the core clock, and no received frame cuts its frames (R202). -/
def Port.cut (aes : Bool) (n : Nat) (x : Port) : Port :=
  if aes then (if x.inM then x else { x with tx0 := [], tx1 := [], txSubs := [] })
  else
    let k := (n - x.cfg.firstBit) / x.cfg.width
    { x with tx0 := x.tx0.take k, tx1 := x.tx1.take k }

/-- A glitch (R207, R224, R225): the previous frame stands in; the third in a row in RUN sends the port to LOST. It is not among the frames of
a block (the model's choice, log 145). -/
def glitchFrame (p : PortId) (n : Nat) (s : State) : State :=
  let x := s.port[p]
  let c := satInc x.glitch
  let s := cntSat (cntId 3 p.val 0) x.glitch c
    (s.modPort p fun x => { x.cut (isAes p) n with glitch := c, glitchRun := min 3 (x.glitchRun + 1), good := 0, done := x.done + 1 })
  if x.st = .run ∧ 2 ≤ x.glitchRun then portLost p 6 s
  else if x.st = .run ∨ x.st = .stopping ∨ x.toRun then pushFrame p x.previous s
  else s

/-- The glitches of a frame that is not good, but for those already counted while no start had come. -/
def glitches (p : PortId) (f : RxFrame) (s : State) : State :=
  let x := s.port[p]
  let c := x.cfg
  let n := frameGlitches p c f
  let s := s.modPort p fun x => { x with overdue := if isAes p ∨ (c.nextStart f).isSome then 0 else max n x.overdue }
  (List.range (n - x.overdue)).foldl (fun s _ =>
    if s.port[p].st = .lost then s else glitchFrame p ((c.nextStart f).getD (f.edges.length - 1)) s) s

/-- The subframes of a good AES frame, A then B. -/
def aesFrame (p : PortId) (f : RxFrame) (s : State) : State :=
  match f.subs with
  | [a, b] => aesSubframe p 1 (zPre f) b (aesSubframe p 0 (zPre f) a s)
  | _ => s

/-- A good frame: in WAIT it counts for qualification (R211), else it is handed over; blocks run in RUN (R233). -/
def goodFrame (p : PortId) (f : RxFrame) (s : State) : State :=
  let x := s.port[p]
  let dup := x.inM && decide (1 ≤ x.done)
  let s := if isAes p then aesFrame p f s else s
  let w := frameWords p f s
  let s := s.modPort p fun x => { x with glitchRun := 0, overdue := 0, done := x.done + 1 }
  if x.st = .run then blockFrame p f (pushFrame p w s)
  else if x.st = .stopping ∨ x.toRun then pushFrame p w s
  else
    let n := if dup then 0 else x.good + 1
    if 256 ≤ n then pushFrame p w (s.modPort p fun x => { x with good := n, toRun := true })
    else s.modPort p fun x => { x with good := n }

/-- An AES receiver takes frame rates from 28 kHz to 200 kHz (R227). -/
def inBand (p : PortId) (f : RxFrame) : Bool := !isAes p || (28000 ≤ f.rate && f.rate ≤ 200000)

/-- FRAME_RECEIVED (R206, R207, R211, R215, R217, R227, R228, R231, R233). -/
def execFrameReceived (p : PortId) (f : RxFrame) (s : State) : Out :=
  done <|
    match s.port[p].st with
    | .off | .lost => s
    | .wait | .run | .stopping =>
      if !inBand p f then s
      else
        let s := loopFrame p f s
        if frameGood p s.port[p].cfg f then goodFrame p f s else glitches p f s

/-! ### Transmit frames (R209, R213, R214, R216, R217, R232) -/

/-- An AES transmitter takes programmed values at a Z preamble (R232). -/
def AesCh.zStart (a : AesCh) : AesCh :=
  match a.next with
  | some (st, us, cr, v) => { a with txStatus := st, txUser := us, crcc := cr, v := v, next := none }
  | none => a

/-- Bit n of a block of bytes, each LSB first. -/
def blockBit (b : Vector Byte 24) (n : Nat) : Bool := bit (b.toList.getD (n / 8) 0) (n % 8)

/-- The channel status that is sent: with the CRCC flag a professional block takes the CRCC of bytes 0 to 22 as byte 23 (R232). -/
def AesCh.statusSent (a : AesCh) : Vector Byte 24 :=
  if bit a.txStatus[0] 0 && a.crcc then a.txStatus.set 23 (Sys2Proof.Machine.crcc a.txStatus) else a.txStatus

/-- Time slots 4 to 31 of a transmitted subframe: sample, V, U, C and the even parity (R227, R232). -/
def AesCh.slots (a : AesCh) (n : Nat) (v : Word) : BitVec 28 :=
  let w : BitVec 27 := BitVec.ofNat 27 (v.toNat % 16777216 + boolN a.v <<< 24 + boolN (blockBit a.txUser n) <<< 25
    + boolN (blockBit a.statusSent n) <<< 26)
  BitVec.ofNat 28 (w.toNat + boolN (!even w) <<< 27)

/-- The subframes of the frame with the slot words of line 0; a channel in high impedance sends none (R227, R232). -/
def Port.subframes (x : Port) : List SubFrame :=
  (idx 2).filterMap fun (c : Fin 2) => (x.tx0.getD c.val none).map fun v =>
    { pre := if c = 1 then .y else if x.txFrame = 0 then .z else .x, slots := (x.aes[c]).slots x.txFrame v }

/-- Count a transmit frame; an AES block has 192 and takes programmed values at its Z preamble. -/
def Port.txCount (aes : Bool) (x : Port) : Port :=
  let y := { x with txDone := x.txDone + 1 }
  if aes then
    let y : Port := { y with aes := if x.txFrame = 0 then vmap AesCh.zStart y.aes else y.aes }
    { y with txSubs := y.subframes, txFrame := (x.txFrame + 1) % 192 }
  else y

/-- Enabled slots at zero. -/
def Port.silence (x : Port) : Port := x.send (List.replicate x.nOut 0)

/-- A frame of a bound port leaves the elastic buffer unsent. -/
def Port.drain (x : Port) : Port := if x.inM then x else { x with txBuf := x.txBuf.drop 1 }

/-- The data of a frame that starts in RUN or STOPPING; in the quiet state and in the loop test the buffer of a bound port runs on (R214,
R217). -/
def txRun (p : PortId) (s : State) : State :=
  let x := s.port[p]
  let w := x.cfg.width
  if s.isQuiet then s.modPort p fun x => x.drain.silence
  else if x.looping then
    let (n, s) := s.freshMany 64
    s.modPort p fun x => x.drain.send ((List.range x.nOut).map fun i =>
      BitVec.ofNat 32 ((Config.freeWord (n + i)).toNat % 2 ^ w))
  else if x.inM then
    if 1 ≤ x.txDone then s else s.modPort p fun x => x.send (x.txData.map (outSlot w))
  else match x.txBuf with
    | [] => txSlip p s
    | d :: r => s.modPort p fun x => { x.send (d.map fun v => outSlot w (scaleQ v x.txFade.v)) with txBuf := r }

/-- The transmit factor of a bound port moves by a frame; at the switch of a mask change the new masks are in force and it rises again
(R221, R223). -/
def Port.frameFade (x : Port) : Port :=
  let y := if x.st = .run ∧ !x.loop ∧ x.txFade.v = 0 ∧ x.txFade.goal = 0 then
      { x with outNow := ((x.shadow.getD x.masks).out0, (x.shadow.getD x.masks).out1), txFade := x.txFade.move 1 (1/64) }
    else x
  { y with txFade := y.txFade.tick }

/-- A frame of the stop sequence counts: its data have begun to fade. A port in domain M sends C_(k−1) under the factor of the boundary
before (R213, R216). -/
def Port.stopCounts (x : Port) : Bool := !x.inM || x.fade.v = 0 || decide (x.fade.v < 63 * x.fade.step)

/-- The long tick of a realignment runs (R303). -/
def State.inLongTick (s : State) : Bool := match s.clk.realign with | .longTick _ => true | _ => false

/-- The stop sequence is over: its frames are sent, and the rows of a bound port have faded too (R213). -/
def Port.stopOver (x : Port) : Bool := x.stopLeft = 0 && (x.inM || x.fade.v = 0)

/-- TRANSMIT_FRAME_START; a bound AES port sends no frames while its receiver does not run (R202). After a change of the rate of M the
transmit data fade before the slots follow TXIDLE (R214). -/
def execTransmitFrameStart (p : PortId) (s : State) : Out :=
  done <|
    let s := s.modPort p fun x => if x.inM then x.keepEnd else { x.keepEnd.frameFade with txAt := s.clk.now }
    let x := s.port[p]
    let count (s : State) : State := s.modPort p (Port.txCount (isAes p))
    match x.st with
    | .off | .lost | .wait =>
      if isAes p ∧ !x.inM then s.modPort p fun x => { x with tx0 := [], tx1 := [], txSubs := [] }
      else if x.st = .wait ∧ x.txTail then count (txRun p s)
      else count (s.modPort p (if isAes p ∧ x.st = .wait then Port.silence else Port.sendIdle))
    | .run => count (if x.inM ∧ 1 ≤ x.txDone ∧ !s.inLongTick then txSlip p (txRun p s) else txRun p s)
    | .stopping =>
      if x.stopOver then
        raise 0x8302 [wordN p.val, 0] (portTo p .off 3 (s.modPort p fun x => x.idleBufs.sendIdle.rest 0))
      else count (txRun p (s.modPort p fun x => { x with stopLeft := if x.stopCounts then x.stopLeft - 1 else x.stopLeft }))

/-! ### Clock faults and reports -/

/-- CLOCK_STOP: the lines keep what they carry until BCK returns (R209, R213, R224); the saddle of a bound port mutes (R199). -/
def execClockStop (p : PortId) (s : State) : Out :=
  done <|
    match s.port[p].st with
    | .run => portLost p 5 s
    | .stopping =>
      raise 0x8302 [wordN p.val, 1]
        (portTo p .off 4 (portSaddleMute p 3 (s.modPort p fun x => x.idleBufs.rest 0)))
    | .wait => portSaddleMute p 3 (s.modPort p fun x => { x with good := 0, toRun := false, rxBuf := [] })
    | .off | .lost => portSaddleMute p 3 s

/-- CLOCK_RETURN: the first BCK edge takes a port from LOST to WAIT (R224). -/
def execClockReturn (p : PortId) (s : State) : Out :=
  done <| if s.port[p].st = .lost then portTo p .wait 9 (s.modPort p fun x => { x with good := 0, done := 0 }) else s

/-- MARGIN_WINDOW (R219). -/
def execMarginWindow (p : PortId) (margin : Nat) (rateErr : Int) (s : State) : Out :=
  .next <|
    let x := s.port[p]
    if !x.inM ∨ x.st = .off ∨ x.st = .lost then s
    else if x.st = .run then
      let s := s.modPort p fun x => { x with margin := margin, rateErr := rateErr }
      if margin < 512 then raise 0x8303 [wordN p.val, wordN margin, wordI rateErr] s else s
    else s.modPort p fun x => { x with rateErr := rateErr }

/-! ### A port at a boundary -/

/-- Entry to RUN (R211, R222): the newest shadow masks, a fade-in, blocks from 0. -/
def portRun (p : PortId) (s : State) : State :=
  portTo p .run 2 (s.modPort p fun x =>
    let k := x.shadow.getD x.masks
    { x with toRun := false, good := 0, masks := k, shadow := none, outNow := (k.out0, k.out1),
             fade := { v := 0, goal := 1, step := 1/64 }, txFade := { v := 0, goal := 1, step := 1/64 },
             rxSlips := [], txSlips := [], glitchRun := 0, blockOn := false, blockNo := 0, blockPos := 0, txBuf := [],
             rxReady := false, txReady := false, txTail := false, rxBuf := if x.inM then x.rxBuf else [] })

/-- The hand-over of R215. -/
def handOver (p : PortId) (s : State) : State :=
  let x := s.port[p]
  if x.st = .run ∧ x.inM then
    let n := x.rxBuf.length
    let s := if n = 1 then s else rxSlip p (if n = 0 then 1 else n - 1) s
    if s.port[p].st = .run then s.modPort p fun y => { y with last := x.previous, rxBuf := [] } else s
  else if x.st = .stopping ∧ x.inM then s.modPort p fun y => { y with last := x.previous, rxBuf := [] }
  else s

/-- The switch of a mask change, and the fade-in after a loop test: the rows stand at zero (R221, R444). -/
def Port.switch (x : Port) : Port :=
  if x.st = .run ∧ !x.loop ∧ x.fade.v = 0 ∧ x.fade.goal = 0 then
    { x with masks := x.shadow.getD x.masks, shadow := none, fade := x.fade.move 1 (1/64) }
  else x

/-- The transmit data of the tick that begins: C_(k−1), under the mapping and the factor of boundary k − 1 (R216, R221). -/
def Port.takeCols (col : Vector Word 256) (x : Port) : Port :=
  let y := { x with outNow := (x.masks.out0, x.masks.out1), txFade := x.fade, txTail := x.txTail && x.fade.v ≠ 0 }
  { y with txData := (List.range y.nOut).map fun i => scaleQ col[fin 256 (x.cfg.txbase + i)] x.fade.v }

/-- A port at boundary k, before S_k is taken. -/
def portBoundary (p : PortId) (s : State) : State :=
  let x := s.port[p]
  let s := s.modPort p fun x => if x.inM then x.takeCols s.mtx.col else x
  let s := if x.st = .run ∧ x.inM ∧ x.txDone = 0 then txSlip p s else s
  let s := if x.st = .wait ∧ x.inM ∧ x.done = 0 ∧ !x.toRun then s.modPort p fun x => { x with good := 0 } else s
  let s := if x.st = .wait ∧ x.toRun then portRun p s else s
  let s := handOver p s
  s.modPort p fun x =>
    let y := x.switch
    { y with fade := y.fade.tick, aes := vmap (fun (a : AesCh) => { a with fade := a.fade.tick }) y.aes, done := 0, txDone := 0 }

/-- The rows of a port in domain M in S_k, from RXBASE (R208, R220, R223). -/
def portRows (p : PortId) (x : Port) : List Word :=
  if !x.inM ∨ x.st = .off then []
  else
    let l := x.compact x.last
    (List.range l.length).zip l |>.map fun v => scaleQ v.2 (x.rowFade p v.1)

/-- A change of the rate of M: ports in domain M in RUN fade and qualify again, saddles mute (R199, R214). -/
def ratePorts (s : State) : State :=
  let s := forIdx 12 (fun p s =>
    let x := s.port[p]
    if x.inM ∧ x.st = .run then
      portTo p .wait 0xA (s.modPort p fun x => { x.idleBufs.fall 64 with txTail := true })
    else s) s
  forIdx 8 (fun k s => if s.sad[k].st = .unbound then s else saddleDrop k 4 s) s

/-! ### Microphones (R235 to R237) -/

/-- A PDMCK runs while a microphone on its pins is enabled, at 64 × M; it is held low, 0 Hz, otherwise (R235). -/
def State.pdmckHz (s : State) (k : Fin 2) : Nat :=
  if (idx 16).any fun (m : MicId) => m.val / 8 = k.val && s.mic[m].on then 64 * s.clk.mrate.hz else 0

/-- Sums of 16 neighbours. -/
def box16 (l : List Int) : List Int := (List.range (l.length - 15)).map fun i => ((l.drop i).take 16).foldl (· + ·) 0

/-- The four outputs of the fourth-order comb decimator by 16 in a tick, newest first, from the bits of the tick before and of this one; the
newest is centred 32 edges before the tick's end (R236, log 126). -/
def combOut (old new : Quad) : List Int :=
  let b (w : Quad) : List Int := (List.range 64).map fun i => (boolN (bit w i) : Int)
  let y := box16 (box16 (box16 (box16 (b old ++ b new))))
  [65, 49, 33, 17].map fun t => y.getD t 0

/-- Tap i of the FIR decimator, symmetric about tap 46, with sum 1 (R236). -/
def firTap (i : Nat) : Rat :=
  if i = 46 then 1 - 2 * ((List.range 46).map fun j => Config.pdmTap (j + 1)).foldl (· + ·) 0
  else Config.pdmTap (if 46 ≤ i then i - 46 else 46 - i)

/-- The decimated sample: a density d maps to (2d − 1) × 2^31, filtered by a linear-phase FIR decimator of 93 taps, whose centre lies 46 comb
outputs, and so 12 ticks, back (R236, log 126). -/
def pdmDecimate (combs : List Int) : Int :=
  let l := combs.take 93
  sat32 (roundHalfUp (((List.range l.length).zip l).foldl (fun a x =>
    a + ((x.2 * 65536 - 2147483648 : Int) : Rat) * firTap x.1) 0))

/-- Sampling edges without a change at the end of a tick, at most 4,096, and whether that was reached within the tick (R237). -/
def stillRun (last : Bool) (n : Nat) (w : Quad) : Nat × Bool :=
  let r := (List.range 64).foldl (fun (x : Bool × Nat × Bool) i =>
    let k := if bit w i = x.1 then min 4096 (x.2.1 + 1) else 0
    (bit w i, k, x.2.2 || k = 4096)) (last, n, false)
  r.2

/-- The first-order high-pass of 20 Hz (R235, log 126). -/
def State.pdmHighPass (s : State) (x : Int) (m : Mic) : Int :=
  let a := near (Config.pdmPole s.clk.mrate.hz) (expNeg (-(251327412 / 2000000 : Rat) / (s.clk.mrate.hz : Rat))) roundBound
  (((m.hpOut + (x - m.hpIn) * 4294967296 : Int) : Rat) * a).floor

/-- A microphone takes the bits of a tick. -/
def State.pdmTake (s : State) (w : Quad) (m : Mic) : Mic :=
  let combs := (combOut m.bits w ++ m.combs).take 96
  let x := pdmDecimate combs
  let y := s.pdmHighPass x m
  let still := stillRun (bit m.bits 63) m.still w
  { m with bits := w, combs := combs, hpIn := x, hpOut := y, still := still.1, hit := still.2,
           alive := if still.2 then 0 else min 256 (m.alive + 1),
           sample := BitVec.ofInt 32 (if m.hp then sat32 (roundHalfUp ((y : Rat) / 4294967296)) else x) }

/-- PDM_SAMPLE_COMPLETE. -/
def execPdmSampleComplete (m : MicId) (bits : Quad) (s : State) : Out :=
  .next <| s.modMic m fun x => if x.on then s.pdmTake bits x else x

/-- MIC_ENABLE_HOLD_EXPIRY. -/
def execMicEnableHoldExpiry (m : MicId) (s : State) : Out :=
  .next <| s.modMic m fun x => match x.hold with
    | some n => if x.on ∧ 256 ≤ n then
        { x with hold := none, fade := if x.stuck then x.fade else x.fade.move 1 (1/64) } else x
    | none => x

/-- MIC_STUCK_DETECT, once the data have not changed for 4,096 edges. -/
def execMicStuckDetect (m : MicId) (s : State) : Out :=
  .next <|
    if s.mic[m].on ∧ !s.mic[m].stuck ∧ s.mic[m].hit then
      raise 0x8307 [wordN m.val, 0] (s.modMic m fun x => { x with stuck := true, fade := x.fade.move 0 (x.fade.v / 64) })
    else s

/-- MIC_RECOVERY, once they have changed within every 4,096 edges for 256 ticks. -/
def execMicRecovery (m : MicId) (s : State) : Out :=
  .next <|
    if s.mic[m].on ∧ s.mic[m].stuck ∧ s.mic[m].alive = 256 then
      raise 0x8307 [wordN m.val, 1] (s.modMic m fun x =>
        { x with stuck := false, fade := if x.hold.isSome then x.fade else x.fade.move 1 (1/64) })
    else s

/-- Enable a microphone: its row holds zero for 256 ticks. -/
def Mic.enable (x : Mic) : Mic := if x.on then x else { Mic.reset with on := true, hp := x.hp, hold := some 0 }

/-- Disable a microphone: its row fades to zero. -/
def Mic.disable (x : Mic) : Mic :=
  if x.on then { x with on := false, hold := none, stuck := false, fade := x.fade.move 0 (x.fade.v / 64) } else x

/-- A microphone at a boundary. -/
def Mic.boundary (x : Mic) : Mic := { x with fade := x.fade.tick, hold := x.hold.map (· + 1) }

/-- Its row in S_k. -/
def Mic.row (x : Mic) : Word := scaleQ x.sample x.fade.v

/-- A change of the rate of M restarts an enabled microphone. -/
def Mic.rate (x : Mic) : Mic := if x.on then { x with hold := some 0, stuck := false, fade := .at 0 } else x

end Sys2Proof.Machine
end

