-- ==== Sys2Proof/Machine/Power.lean ====
section
/-! DEFINITION. The rows of the power stage: modulator, rails, diagnostics, trips, thermal and line supervision (09, 10). -/
namespace Sys2Proof.Machine
open Sys2Proof

/-! ### Trips (R267 to R269) -/

/-- Ticks since a tick of the past, modulo 2^32 (R308). -/
def State.since (s : State) (t : Word) : Nat := (s.clk.tick - t).toNat

/-- The trips of the last 60 s (R269). -/
def State.trips60 (s : State) (c : ChanId) : List Nat := (s.pcd.ch[c].trips).filter (s.lately 60)

/-- When no channel of the group is left in RUN or a ramp, BGn goes low and r_n falls to V_floor without the release; both stay
so until a channel of the group starts (R268). -/
def groupIdle (c : ChanId) (s : State) : State :=
  let r := railOf c
  if (idx 16).any fun (k : ChanId) => railOf k = r && s.pcd.ch[k].st.switching then s
  else s.modRail r fun x => { x with bg := false, idle := true, ref := s.vfloor r }

/-- Count a trip: TRIPPED, or LOCKED at the third within 60 s (R269). -/
def countTrip (c : ChanId) (s : State) : State :=
  let t := s.clk.now :: s.trips60 c
  let s := s.modCh c fun ch => { ch with trips := t }
  if 3 ≤ t.length then raise 0x8705 [wordN c.val] (chQuiet c .locked s) else chQuiet c .tripped s

/-- A trip of a switching channel, with the event that reports it. -/
def trip (c : ChanId) (code : Nat) (pl : List Word) (s : State) : State :=
  groupIdle c (countTrip c (raise code (wordN c.val :: pl) (s.modCh c fun ch => { ch with tripNow := true })))

/-! ### The modulator -/

/-- The thermal gain in dB that a channel uses: the lowest of its zone under ZONEFOLD (R390). -/
def State.gthEff (s : State) (c : ChanId) : Rat :=
  (idx 16).foldl (fun g z =>
    let zn := s.fw.zone[z]
    if zn.on && zn.fold && zn.chans.getLsbD c.val then
      (bitsOf 16 zn.chans).foldl (fun g (k : ChanId) => min g s.pcd.ch[k].gth) g
    else g) s.pcd.ch[c].gth

/-- The interpolated sample of half-period h: linear-phase taps, of the rate at which each sample was made (R259), centred on what was
placed in the buffer 2.0 ms before, with the channel's offset of k/16 period (R13, R240). The model takes it as an integer in steps of
Q1.31 that may overshoot full scale, and rounds it half up (log 123). -/
def State.interpolated (s : State) (c : ChanId) (h : Int) : Int :=
  roundHalfUp (s.pcd.ch[c].look.foldl (fun a x =>
    let d : Rat := ((x.age + s.pcd.skew : Nat) : Rat) / 1024 + h + (c.val : Rat) / 8 - s.lookDelay
    a + x.v.toInt * Config.interpTap x.rate.hz (if d < 0 then -d else d)) 0)

/-- The sample that R241 uses: the interpolated sample under the four gains, rounded half up under R482 without a saturation, since
R241 clamps (R272, log 123). -/
def State.modSample (s : State) (c : ChanId) (h : Int) : Int :=
  let ch := s.pcd.ch[c]
  roundHalfUp ((s.interpolated c h : Rat) * (ch.gch.v * dbFactor (s.gthEff c) * ch.gdc.v * s.pcd.gm.v))

/-- The pilot of 30 kHz at n half-periods after its start, as a fraction of its amplitude (R276). -/
def State.pilotSine (s : State) (c : ChanId) (n : Nat) : Rat :=
  near (Config.pilot c.val n) (sinTurns (Config.pilotPhase c.val + 30000 * (n : Rat) / (s.halfRate : Rat))) roundBound

/-- The voltage that half-period h commands, with the pilot after the gains; n counts the pilot's half-periods (R241, R276). -/
def State.command (s : State) (c : ChanId) (h : Int) (n : Nat) : Rat :=
  let ch := s.pcd.ch[c]
  let x : Rat := (s.modSample c h : Rat) / 2147483648
  (if ch.lsupIn then x + 1585/100000 * s.pilotSine c n else x) * ((ch.cfg.vfs : Rat) / 10)

/-- The modulation index before and after its clamp (R241). At a rail reading of 0 V a command of 0 V takes the index 0: DESIGN CHOICE,
R241 states no 0 / 0 (log 32). -/
def State.modIndex (s : State) (c : ChanId) (h : Int) (n : Nat) : Rat × Rat :=
  let v := s.pcd.rail[railOf c].meas
  let x := s.command c h n
  let u := if v = 0 then (if x = 0 then 0 else Config.overZeroRail x) else x / v
  (u, max (-1) (min 1 u))

/-- An interval to the rail of a1 before and a2 after the centre, in steps of q; one under 32 steps is not produced (R245). -/
def highInterval (a1 a2 : Nat) : Nat × Nat := if a1 + a2 < 32 then (0, 0) else (a1, a2)

/-- A low interval under 32 steps across the start of a period is not produced: the half stays high through it (R245). -/
def stayHigh (prev now : Nat × Nat) : Bool :=
  let low := 8192 - prev.2 - now.1
  decide (0 < now.1) && decide (0 < low) && decide (low < 32)

/-- What an edge was moved by joins its error (R244). -/
def moveErr (x : Rat) : List Rat → List Rat
  | e :: l => (e + x) :: l
  | [] => [x]

/-- An exact edge offset less what the shaper feeds back of the errors before it, newest first (R244). -/
def shaped (err : List Rat) (x : Rat) : Rat :=
  x - (List.finRange 4).foldl (fun a i => a + Config.shaperCoef i * err.getD i.val 0) 0

/-- An edge offset in whole steps of q, rounded to the nearest, within the half-period (R244; the rounding is log 124). -/
def quantEdge (v : Rat) : Nat := min 4096 (roundHalfUp v).toNat

/-- The interval of a period for exact offsets before and after its centre: quantized, with what R245 suppresses; the shaper keeps the
difference of each edge from what it asked for, the end of the period before among them (R243 to R245). -/
def Bridge.drive (a : Rat × Rat) (b : Bridge) : Bridge :=
  let v1 := shaped b.err a.1
  let q1 := quantEdge v1
  let v2 := shaped ((q1 - v1) :: b.err) a.2
  let now := highInterval q1 (quantEdge v2)
  let stay := stayHigh b.edge now
  let e := if stay then (4096, now.2) else now
  let err := if stay then moveErr ((4096 : Rat) - b.edge.2) b.err else b.err
  { b with edge := e, err := (((e.2 : Rat) - v2) :: ((e.1 : Rat) - v1) :: err).take 4 }

/-- The interval of the period before, which goes on to its end where no low interval follows (R245). -/
def joined (prev now : Nat × Nat) : Nat × Nat := if now.1 = 4096 ∧ 4064 < prev.2 then (prev.1, 4096) else prev

/-- A computed period joins those on their way to the switch nodes (R13, R245). -/
def pushPipe (e : (Nat × Nat) × (Nat × Nat)) (l : List ((Nat × Nat) × (Nat × Nat))) : List ((Nat × Nat) × (Nat × Nat)) :=
  match l with
  | p :: l => (e :: (joined p.1 e.1, joined p.2 e.2) :: l).take 4
  | [] => [e]

/-- Turn to a level at a step: the conducting gate off there, the other on DEADTIME steps later (R247). -/
def switchTo (dead t : Nat) (p : Option Bool) (v : Bool) : List Gate :=
  match p with
  | none => [{ step := t, high := v, on := true }]
  | some u => if u = v then [] else [{ step := t, high := u, on := false }, { step := t + dead, high := v, on := true }]

/-- The steps from the period's start at which an interval begins and ends. -/
def spanOf (e : Nat × Nat) : Nat × Nat := (4096 - e.1, 4096 + e.2)

/-- The longest run of low steps in a period with one interval to the rail, and the run open at its end; some were low before it. -/
def lowRuns (before : Nat) (s : Nat × Nat) : Nat × Nat :=
  if s.2 ≤ s.1 then (before + 8192, before + 8192) else (max (before + s.1) (8192 - s.2), 8192 - s.2)

/-- The interval that a period takes at the switch node: low for 128 steps at its start where a refresh is due there, high from its
start where the low interval left by a hold would be under 32 steps, and low for its last 128 steps where no 256 low steps in a row have
been there in 16 periods (R245, R246). -/
def Bridge.fit (e : Nat × Nat) (b : Bridge) : (Nat × Nat) × Bool :=
  let e := if b.due then (min e.1 3968, e.2) else if b.level = some true ∧ 4064 < e.1 then (4096, e.2) else e
  let due := decide (15 ≤ (if 256 ≤ b.low.1 then 0 else b.noLow + 1)) && decide ((lowRuns b.low.2 (spanOf e)).1 < 256)
  (if due then (e.1, min e.2 3968) else e, due)

/-- A period at the switch nodes: its interval, none while the bootstrap is low, and the switchings of both gates; a turn-on that was
due after the end of the period before comes in this one (R243 to R247, Table 18.16). -/
def Bridge.output (dead : Nat) (low : Bool) (e : Nat × Nat) (b : Bridge) : Bridge :=
  let f := if low then ((0, 0), false) else b.fit e
  let b := { b with noLow := if 256 ≤ b.low.1 then 0 else b.noLow + 1, due := f.2, lowIn := b.low.2,
                    low := lowRuns b.low.2 (spanOf f.1),
                    err := if low then b.err else moveErr ((f.1.1 : Rat) - e.1 + ((f.1.2 : Rat) - e.2)) b.err }
  let late := (b.gates.filter fun g => 8192 ≤ g.step).map fun g => { g with step := g.step - 8192 }
  let s := spanOf f.1
  if s.2 ≤ s.1 then { b with out := (0, 0), level := some false, gates := late ++ switchTo dead 0 b.level false }
  else
    let head := if s.1 = 0 then [] else switchTo dead 0 b.level false
    let up := switchTo dead s.1 (if s.1 = 0 then b.level else some false) true
    let down := if s.2 < 8192 then switchTo dead s.2 (some true) false else []
    { b with out := f.1, level := some (decide (8192 ≤ s.2)), gates := late ++ head ++ up ++ down }

/-- All gates of the half low from the period's start; the shaper starts anew. -/
def Bridge.still (b : Bridge) : Bridge :=
  { Bridge.off with gates := match b.level with | some v => [{ step := 0, high := v, on := false }] | none => [] }

/-- The runs of low steps of a period that is held at a level from a step on (R246, R266). -/
def heldLow (before : Nat) (s : Nat × Nat) (t : Nat) (v : Bool) : Nat × Nat :=
  if v then
    if s.1 < s.2 ∧ s.2 ≤ t then (max (before + s.1) (t - s.2), 0) else (before + (if s.1 < s.2 then min s.1 t else t), 0)
  else lowRuns before (s.1, min s.2 t)

/-- Hold a half at one level from a step to the end of the period; a turn-on that an edge to that level has left pending stays, and
the shaper takes what the interval loses or gains (R247, R266). -/
def Bridge.hold (dead t : Nat) (v : Bool) (b : Bridge) : Bridge :=
  let s := spanOf b.out
  let inside := decide (s.1 ≤ t) && decide (t < s.2)
  let planned : Int := (s.2 - max s.1 t : Nat)
  let gain : Int := (if v then (8192 - t : Int) else 0) - planned
  let keep (g : Gate) : Bool := decide (g.step < t) || (g.on && g.high = v && inside = v && decide (g.step ≤ t + dead))
  let low := heldLow b.lowIn s t v
  { b with gates := b.gates.filter keep ++ switchTo dead t (some inside) v, level := some v, low := low,
           due := b.due && decide (low.1 < 256), err := moveErr gain b.err }

/-- The second half of a period, with the reading that stands as it begins; the period's intervals set out for the switch nodes
(R241 to R246). -/
def secondHalf (c : ChanId) (s : State) : State :=
  let ch := s.pcd.ch[c]
  let (x2, u2) := s.modIndex c ch.half ch.pilotN
  let clip := decide (x2 ≠ u2)
  let a := ch.bridgeA.drive ((1 + ch.u1) * 2048, (1 + u2) * 2048)
  let b := ch.bridgeB.drive ((1 - ch.u1) * 2048, (1 - u2) * 2048)
  s.modCh c fun ch => { ch with u2 := u2, mid := none, half := ch.half + 1, pilotN := ch.pilotN + 1, bridgeA := a, bridgeB := b,
                                pipe := pushPipe (a.edge, b.edge) ch.pipe, clipped := ch.clipped || clip,
                                winBad := ch.winBad || clip }

/-- A carrier period in RUN begins: its first half is computed, its second half waits for its reading (R241 to R243). -/
def modulate (c : ChanId) (s : State) : State :=
  let ch := s.pcd.ch[c]
  let (x1, u1) := s.modIndex c ch.half ch.pilotN
  let clip := decide (x1 ≠ u1)
  s.modCh c fun ch => { ch with u1 := u1, mid := some 0, half := ch.half + 1, pilotN := ch.pilotN + 1,
                                clipped := ch.clipped || clip, winBad := ch.winBad || clip }

/-- A carrier period of a ramp: both halves are driven identically with the same duty, which then moves by one step (R249, R250). -/
def rampStep (c : ChanId) (up : Bool) (s : State) : State :=
  let ch := s.pcd.ch[c]
  let a := ch.bridgeA.drive (ch.duty * 4096, ch.duty * 4096)
  let s := s.modCh c fun ch =>
    { ch with half := ch.half + 2, pilotN := ch.pilotN + 2, bridgeA := a,
              bridgeB := { ch.bridgeB with edge := a.edge, err := a.err },
              pipe := pushPipe (a.edge, a.edge) ch.pipe }
  if up then
    let d := min (1/2) (ch.duty + ch.dutyStep)
    s.modCh c fun ch => { ch with duty := d, toRun := decide (d = 1/2) }
  else
    let d := max 0 (ch.duty - ch.dutyStep)
    let s := s.modCh c fun ch => { ch with duty := d }
    if d = 0 then chFinish c (ch.stopWhy.getD .stop) s else s

/-- The period that set out 4 carrier periods before is at the switch nodes (R13); halves that switch and have none yet are low. -/
def outputStep (c : ChanId) (lowA lowB : Bool) (s : State) : State :=
  s.modCh c fun ch =>
    let e := if ch.pipe.length < 4 then ((0, 0), (0, 0)) else ch.pipe.getLastD ((0, 0), (0, 0))
    { ch with bridgeA := ch.bridgeA.output ch.cfg.deadtime lowA e.1, bridgeB := ch.bridgeB.output ch.cfg.deadtime lowB e.2 }

/-- Limited periods of the last 1 ms (R267). -/
def State.limitedMs (s : State) (hist : List Bool) : Nat := ((hist.take s.msCarriers).filter id).length

/-- The period that has ended joins the history; when it was limited, trips and PWR_ILIM. A rail condition of the same period takes
precedence over the trip, and a period trips once (R262, R267). -/
def limitStep (c : ChanId) (s : State) : State :=
  let ch := s.pcd.ch[c]
  let hist := (ch.limNow.isSome :: ch.limited).take 384
  let s := s.modCh c fun ch => { ch with limited := hist, limNow := none, tripNow := false }
  match ch.limNow with
  | none => s
  | some (half, into) =>
    let pl (rule : Nat) : List Word := [wordN (boolN half), wordN (boolN into), wordN rule]
    let spared : Bool := ch.tripNow || ch.st = .railWait || ch.st = .railLatch
    if !spared ∧ 8 ≤ hist.length ∧ (hist.take 8).all id then trip c 0x8703 (pl 0) s
    else if !spared ∧ 64 < s.limitedMs hist then trip c 0x8703 (pl 1) s
    else
      let l := s.clk.now :: ch.ilims.filter (s.lately 1)
      let s := s.modCh c fun ch => { ch with ilims := l }
      if ch.ilimNext ≤ s.clk.now then
        raise 0x8704 [wordN c.val, wordN l.length] (s.modCh c fun ch => { ch with ilimNext := s.clk.now + second })
      else s

/-- The period's drive by the channel's state. -/
def driveStep (c : ChanId) (lowA lowB : Bool) (s : State) : State :=
  match s.pcd.ch[c].st with
  | .run => modulate c (outputStep c lowA lowB s)
  | .rampUp => rampStep c true (outputStep c lowA lowB s)
  | .rampDown => rampStep c false (outputStep c lowA lowB s)
  | _ => s.modCh c fun ch => { ch with bridgeA := ch.bridgeA.still, bridgeB := ch.bridgeB.still, half := ch.half + 2 }

/-- After the stream watchdog, g_ch falls by carrier periods over 1 ms and the ramp follows (R279). -/
def streamStep (c : ChanId) (s : State) : State :=
  let ch := s.pcd.ch[c]
  if s.pcd.streamLost ∧ ch.st = .run ∧ ch.stopWhy.isSome then
    let s := s.modCh c fun ch => { ch with gch := ch.gch.tick }
    if ch.gch.tick.v = 0 then rampDown c (ch.stopWhy.getD .stream) s else s
  else s

/-- A second half that still waits is computed. -/
def closePeriod (c : ChanId) (s : State) : State := if s.pcd.ch[c].mid.isSome then secondHalf c s else s

/-- CARRIER_PERIOD: g_m moves with the periods of CH0 (R272); the ended period's limit is judged, then the period is driven. -/
def execCarrierPeriod (c : ChanId) (bstLowA bstLowB : Bool) (s : State) : Out :=
  done <|
    let s := if c = 0 then { s with pcd.gm := s.pcd.gm.tick } else s
    driveStep c bstLowA bstLowB (streamStep c (limitStep c (closePeriod c s)))

/-- CURRENT_LIMIT: the shunt voltage of a half, in µV and positive when the current flows toward the load, stands at ILIM as the
turn-off begins: from that step on both halves are held at one level for the rest of the period, both low, or both high when the
current flows into the half; the present window of the line supervision is no longer valid (R266, R276). -/
def execCurrentLimit (c : ChanId) (halfB : Bool) (shuntUv : Int) (step : Fin 8192) (s : State) : Out :=
  done <|
    let ch := s.pcd.ch[c]
    if ch.st.switching ∧ ch.limNow = none ∧ 1000 * ch.ilimIn ≤ shuntUv.natAbs then
      let into := decide (shuntUv < 0)
      s.modCh c fun ch => { ch with limNow := some (halfB, into), winBad := true, bridgeA := ch.bridgeA.hold ch.cfg.deadtime step.val into,
                                    bridgeB := ch.bridgeB.hold ch.cfg.deadtime step.val into }
    else s

/-- DC_DETECTION: a trip that PWR_DC reports (R270). -/
def execDcDetection (c : ChanId) (s : State) : Out :=
  done <| if s.pcd.ch[c].st.switching then trip c 0x8706 [] s else s

/-! ### Rails -/

/-- A latched controller: every channel of the group goes quiet at once, whatever its state (Tables 09.5 and 10.1). -/
def latchRail (r : RailId) (code : Nat) (s : State) : State :=
  let s := raise code [wordN r.val, wordI (roundHalfUp (s.pcd.rail[r].meas * 1000))]
    (s.modRail r fun x => { x with latched := true, bg := false, underRun := 0 })
  forIdx 16 (fun c s => if railOf c = r then chQuiet c .railLatch s else s) s

/-- Undervoltage stands: every switching channel of the group goes quiet at once, and one that tripped in the same carrier period
too; PWR_RAIL_UV is raised when it begins and when it takes a channel out of service again (Table 09.5, R262). -/
def railUnder (r : RailId) (first : Bool) (s : State) : State :=
  let hit (s : State) (c : ChanId) : Bool := railOf c = r && (s.pcd.ch[c].st.switching || (s.pcd.ch[c].tripNow && (s.pcd.ch[c].st = .tripped || s.pcd.ch[c].st = .locked)))
  let s := if first || (idx 16).any (hit s) then raise 0x870E [wordN r.val, wordI (roundHalfUp (s.pcd.rail[r].meas * 1000))] s else s
  forIdx 16 (fun c s => if hit s c then chQuiet c .railWait s else s) s

/-- Second halves of the group that wait for this reading: the second one after the period's start stands as they begin (R241). -/
def readHalves (r : RailId) (s : State) : State :=
  forIdx 16 (fun c s =>
    match s.pcd.ch[c].mid with
    | some n =>
      if railOf c = r then (if 1 ≤ n then secondHalf c s else s.modCh c fun ch => { ch with mid := some (n + 1) }) else s
    | none => s) s

/-- RAIL_READING: the supervision of Table 09.5 that counts readings. A new overvoltage of a group that is latched takes its channels to
RAIL_LATCH again, whatever they were started to (Table 10.1). -/
def execRailReading (r : RailId) (code : BitVec 12) (s : State) : Out :=
  done <|
    let s := readHalves r (s.modRail r fun x => { x with code := code })
    let x := s.pcd.rail[r]
    let v := x.meas
    let above := decide (64 < v) || code = 4095
    let under := decide (v < 7)
    let high := x.mode.boosting && (if x.highHold then !decide (v < x.ref + 2) else decide (x.ref + 4 < v))
    let s := s.modRail r fun x =>
      { x with overRun := if above then min 8 (x.overRun + 1) else 0, underRun := if under then min 64 (x.underRun + 1) else 0,
               fbRun := if x.mode.boosting && x.bg && decide (v < s.vbats - 3) then min (s.readings 1) (x.fbRun + 1) else 0,
               upRun := if decide (17/2 ≤ v) then min (s.readings 100) (x.upRun + 1) else 0,
               highHold := high, bg := x.bg && !high }
    let s := if high ∧ !x.highHold ∧ x.highNext ≤ s.clk.now then
        raise 0x870C [wordN r.val, wordI (roundHalfUp (v * 1000))] (s.modRail r fun x => { x with highNext := s.clk.now + second })
      else s
    if above ∧ (x.overRun = 7 ∨ 7 ≤ x.overRun ∧ !x.latched) then latchRail r 0x870D s
    else if under ∧ 63 ≤ x.underRun then railUnder r (x.underRun = 63) s
    else s

/-- The demand D_j of a sample of tick j; i is its place in the look-ahead buffers, newest 0 (R254). -/
def State.demand (s : State) (r : RailId) (i : Nat) : Rat :=
  (idx 16).foldl (fun d c =>
    let ch := s.pcd.ch[c]
    if railOf c = r ∧ ch.st = .run then
      let p : Rat := if ch.lsupIn then 1585/100000 else 0
      let m : Rat := ((ch.look[i]?.map fun y => y.v.toInt.natAbs).getD 0 : Rat) * (10593/10000) / 2147483648
      max d (((ch.cfg.vfs : Rat) / 10) * (m + p) + halfV s.pcd.rail[r].headIn)
    else d) (s.vfloor r)

/-- The time in half-periods, which last as long as boost periods, from the start of the present boost period until a sample of the
given age reaches the modulator; 0 or less once it has (R239, R255). -/
def State.ahead (s : State) (r : RailId) (age : Nat) : Rat := s.lookDelay - (age : Rat) / 1024 - s.pcd.rail[r].bp - (r.val : Rat) / 4

/-- 20 V/ms for one boost period, in V. -/
def State.slope (s : State) : Rat := 20000 / (s.halfRate : Rat)

/-- The envelope target E_b over the samples that have not reached the modulator, tau_j counted to the end of the boost period
(R255). -/
def State.envelope (s : State) (r : RailId) : Rat :=
  let ages := s.pcd.ch[(0 : ChanId)].look.map (·.age)
  let e := (List.range ages.length).foldl (fun e i =>
    let a := s.ahead r (ages.getD i 0)
    if 0 < a then max e (s.demand r i - s.slope * max 0 (a - 1)) else e) (s.vfloor r)
  min (halfV s.pcd.rail[r].vmaxIn) (max (s.vfloor r) e)

/-- exp(−T_boost / 200 ms): 200 ms are a fifth of the boost periods of a second (R255). -/
def State.railRelease (s : State) : Rat :=
  let x : Rat := 5 / (s.halfRate : Rat)
  near (Config.releaseFactor x) (expNeg (-x)) roundBound

/-- r_n in the present boost period; V_floor while the group's last channel has tripped (R253, R255, R268). -/
def State.nextRef (s : State) (r : RailId) : Rat :=
  let x := s.pcd.rail[r]
  if x.idle then s.vfloor r
  else match x.mode with
  | .pass => s.vfloor r
  | .fixed => halfV x.vmaxIn
  | .track =>
    let e := s.envelope r
    if x.ref ≤ e then min e (x.ref + s.slope) else e + (x.ref - e) * s.railRelease

/-- A diagnostic of the channel runs: in DIAG, or in OFF for PWR_DIAG. -/
def Chan.diagnosed (ch : Chan) : Bool := ch.st = .diag || (ch.st = .off && ch.diagOnly)

/-- A channel of the group is under diagnosis and none is in RUN or a ramp: BGn is held low (R263). -/
def State.diagHold (s : State) (r : RailId) : Bool :=
  ((idx 16).any fun (c : ChanId) => railOf c = r && s.pcd.ch[c].diagnosed)
    && !(idx 16).any fun (c : ChanId) => railOf c = r && s.pcd.ch[c].st.switching

/-- The newest sample's demand arrives late or capped (R256). -/
def State.shortfall (s : State) (r : RailId) : Bool :=
  s.pcd.rail[r].bp = 0 && s.pcd.rail[r].mode = .track
    && (decide (40 < s.demand r 0 - s.pcd.rail[r].ref) || decide (halfV s.pcd.rail[r].vmaxIn < s.demand r 0))

/-- BGn may switch in the present boost period: no latch, hold or quiet state keeps it low and the reading is not above r_n
(R254, R263, R268, Table 09.5). -/
def State.boosts (s : State) (r : RailId) (ref : Rat) : Bool :=
  let x := s.pcd.rail[r]
  x.mode.boosting && !x.latched && !x.highHold && !x.idle && !s.pcd.quiet && !s.pcd.supplyLow && !s.diagHold r
    && decide (x.meas ≤ ref)

/-- BOOST_PERIOD: r_n moves toward the envelope, and BGn switches unless it is held low; the sense voltage that the period reaches by
86 % of it ends the on-time at the current demand or at BILIM, whichever is lower, and 86 % of the period ends it otherwise. The
reading of VBATS is refreshed once per carrier period, in every second boost period of group 0 (DESIGN CHOICE: R254 names no group;
log 146) (R254 to R256). -/
def execBoostPeriod (r : RailId) (senseUv vbatsMv : Nat) (s : State) : Out :=
  done <|
    let s : State := if r = 0 ∧ s.pcd.rail[r].bp % 2 = 0 then { s with pcd.vbatsMv := vbatsMv } else s
    let x := s.pcd.rail[r]
    let s : State := if s.shortfall r ∧ x.shortNext ≤ s.clk.now then
        raise 0x870B [wordN r.val, wordI (roundHalfUp (x.meas * 1000))] (s.modRail r fun x => { x with shortNext := s.clk.now + second })
      else s
    let ref := s.nextRef r
    let on := s.boosts r ref
    let demand := Config.currentDemand ref x.meas
    let lim := min demand (1000 * x.bilim)
    let atLimit := on && decide (1000 * x.bilim ≤ min demand senseUv)
    s.modRail r fun x =>
      { x with ref := ref, bg := on, atLimit := atLimit, bp := x.bp + 1,
               bgOn := if !on then 0 else if lim ≤ senseUv then max 0 (min (86/100) (Config.reachTime lim senseUv)) else 86/100,
               ovlRun := if atLimit then min (s.halfRate / 1000 + 1) (x.ovlRun + 1) else 0 }

/-- RAIL_RECOVERY: 8.5 V or more in the readings of 100 ms restarts the group's channels in RAIL_WAIT with RAMP_UP (Table 09.5). -/
def execRailRecovery (r : RailId) (s : State) : Out :=
  done <|
    if s.readings 100 ≤ s.pcd.rail[r].upRun then
      forIdx 16 (fun c s =>
        if railOf c = r ∧ s.pcd.ch[c].st = .railWait then
          if s.pcdHeld then chTo c .off (s.modCh c fun ch => { ch with wasRun := true }) else rampUp c s
        else s) s
    else s

/-- FEEDBACK_LOST, when the readings of 1 ms were too low while BGn switched (Table 09.5). -/
def execFeedbackLost (r : RailId) (s : State) : Out :=
  done <|
    if s.readings 1 ≤ s.pcd.rail[r].fbRun then latchRail r 0x870F s
    else s

/-- BOOST_OVERLOAD, when every boost period of 1 ms reached BILIM: the controller keeps regulating (Table 09.5). -/
def execBoostOverload (r : RailId) (s : State) : Out :=
  done <|
    let x := s.pcd.rail[r]
    if s.halfRate ≤ 1000 * x.ovlRun ∧ x.ovlNext ≤ s.clk.now then
      raise 0x8710 [wordN r.val, wordI (roundHalfUp (x.meas * 1000))] (s.modRail r fun x => { x with ovlNext := s.clk.now + second })
    else s

/-! ### Diagnostics and retries -/

/-- The first class of Table 10.3 whose condition holds, from 0; resistances in 0.1 Ω. -/
def loadClass (v : DiagVals) : Nat :=
  if v.gndA < 200 ∨ v.gndB < 200 then 0
  else if v.supA < 200 ∨ v.supB < 200 then 1
  else if v.load < 15 then 2
  else if v.load < 20 then 3
  else if 2000 < v.load then 4
  else if 640 < v.load then 5
  else 6

/-- What follows a diagnostic (R265, R269, Table 10.1); in the quiet state a channel that passes waits in OFF (log 25). -/
def diagNext (c : ChanId) (cls : Nat) (s : State) : State :=
  let ch := s.pcd.ch[c]
  if ch.st = .off then s.modCh c fun ch => { ch with diagOnly := false }
  else if cls = 6 then
    if s.pcdHeld then chTo c .off (s.modCh c fun ch => { ch with wasRun := true })
    else rampUp c (s.modCh c fun ch => { ch with duty := 0 })
  else if ch.retrying then countTrip c (raise 0x8703 [wordN c.val, 0xFF, 0xFF, 2] s)
  else chTo c .diagFail s

/-- DIAGNOSTIC_COMPLETE (R264, R265). -/
def execDiagnosticComplete (c : ChanId) (v : DiagVals) (s : State) : Out :=
  done <|
    if s.pcd.ch[c].diagnosed then
      let cls := loadClass v
      let s := raise 0x8702 ([c.val, cls, v.gndA, v.gndB, v.supA, v.supB, v.load].map wordN)
        (s.modCh c fun ch => { ch with cls := cls, diag := v })
      diagNext c cls s
    else s

/-- RETRY_INTERVAL_EXPIRY (R269). -/
def execRetryIntervalExpiry (c : ChanId) (s : State) : Out :=
  done <| if s.pcd.ch[c].st = .tripped then startDiag c true s else s

/-! ### Digital DC (R271) -/

/-- One sample enters the low-pass of 100 ms; the filtered value is kept to 2^−32 of a step, and its smoothing factor is held near
1 − exp(−T / 100 ms) (R271, log 81). -/
def State.dcFilter (s : State) (x : Word) (y : Int) : Int :=
  let a := near (Config.dcAlpha s.clk.mrate.hz) (1 - expNeg (-10 / (s.clk.mrate.hz : Nat))) roundBound
  y + (((x.toInt * 4294967296 - y : Int) : Rat) * a).floor

/-- The detector at a boundary: the time for which the filtered magnitude has stayed at 0.1 × 2^31 or above, and below
0.05 × 2^31, up to a second (R271). -/
def dcDetect (x : Word) (n : Nat) (s : State) (ch : Chan) : Chan :=
  let y := s.dcFilter x ch.dcLp
  { ch with dcLp := y, dcHigh := if 2147483648 * 4294967296 ≤ 10 * y.natAbs then min second (ch.dcHigh + n * timeUnit s.clk.family) else 0,
            dcLow := if 20 * y.natAbs < 2147483648 * 4294967296 then min second (ch.dcLow + n * timeUnit s.clk.family) else 0 }

/-- DIGITAL_DC_MUTE, when the detector has seen DC for 1 s: g_dc falls over 480 ticks, and the rows of the column are read for
100 ms. -/
def execDigitalDcMute (c : ChanId) (s : State) : Out :=
  done <|
    let ch := s.pcd.ch[c]
    if ch.gdc.goal = 1 ∧ second ≤ ch.dcHigh then
      s.modCh c fun ch => { ch with gdc := ch.gdc.within 0 480, dcAcc := [], dcTicks := 0, dcUntil := s.clk.now + second / 10, dcOpen := true }
    else s

/-- Insert by the magnitude of the mean, largest first. -/
def insertMean (x : Nat × Int) : List (Nat × Int) → List (Nat × Int)
  | [] => [x]
  | y :: l => if y.2.natAbs < x.2.natAbs then x :: y :: l else y :: insertMean x l

/-- Rows and means as payload words, five pairs to an event. -/
def dcEvents (c : ChanId) : Nat → List (Nat × Int) → State → State
  | 0, _, s => s
  | n + 1, l, s =>
    let pl := (l.take 5).flatMap fun x => [wordN x.1, wordI x.2]
    let s := raise 0x8709 ([wordN c.val, 1] ++ pl) s
    if l.length ≤ 5 then s else dcEvents c n (l.drop 5) s

/-- DC_MUTE_REPORT, at the end of the 100 ms: the mean contribution of each row with a gain into the column, largest first. -/
def execDcMuteReport (c : ChanId) (s : State) : Out :=
  done <|
    let ch := s.pcd.ch[c]
    if ch.dcOpen ∧ ch.dcUntil ≤ s.clk.now then
      let n := max 1 ch.dcTicks
      let means := ch.dcAcc.map fun x => (x.1, roundHalfUp ((x.2 : Rat) / (16384 * n : Nat)))
      dcEvents c 512 (means.foldr insertMean []) (s.modCh c fun ch => { ch with dcAcc := [], dcOpen := false })
    else s

/-- DC_MUTE_RESTORE, when the filtered magnitude has stayed low for 1 s: g_dc rises over 480 ticks. -/
def execDcMuteRestore (c : ChanId) (s : State) : Out :=
  done <|
    if s.pcd.ch[c].gdc.goal = 0 ∧ second ≤ s.pcd.ch[c].dcLow then
      raise 0x8709 [wordN c.val, 0] (s.modCh c fun ch => { ch with gdc := ch.gdc.within 1 480 })
    else s

/-! ### Thermal (R273 to R275) -/

/-- The mean of the readings is at least t °C; readings in 0.1 °C. -/
def meanGe (l : List Int) (t : Int) : Bool := l ≠ [] && decide (t * 10 * l.length ≤ l.foldl (· + ·) 0)

/-- The governing sources of a channel at or above a threshold: NTC, PCD sensor, processing-die sensor (R273). -/
def State.hotSources (s : State) (c : ChanId) (fet die : Int) (badNtc : Bool) : List Nat :=
  let ch := s.pcd.ch[c]
  (if ch.ntcBad then (if badNtc then [0] else []) else if meanGe ch.ntc fet then [0] else [])
    ++ (if meanGe s.pcd.pcdT die then [1] else []) ++ (if meanGe s.pcd.dieT die then [2] else [])

/-- Sources at T_FOLD; an invalid NTC counts as at T_FOLD_FET. -/
def State.folders (s : State) (c : ChanId) : List Nat :=
  s.hotSources c s.pcd.ch[c].fetIn.1 s.pcd.dieIn.1 true

/-- Sources at T_STOP; an invalid NTC never counts. -/
def State.stoppers (s : State) (c : ChanId) : List Nat :=
  s.hotSources c s.pcd.ch[c].fetIn.2 s.pcd.dieIn.2 false

/-- Every source is below T_FOLD − 10 °C. -/
def State.cool (s : State) (c : ChanId) : Bool :=
  s.hotSources c (s.pcd.ch[c].fetIn.1 - 10) (s.pcd.dieIn.1 - 10) true = []

/-- A reading joins the last eight; an invalid NTC reading marks the source for the rest of the reset (R273). -/
def ntcRead (c : ChanId) (v : Int) (s : State) : State :=
  if s.pcd.ch[c].ntcBad then s
  else if v < -500 ∨ 1700 < v then raise 0x8707 [wordN c.val] (s.modCh c fun ch => { ch with ntcBad := true })
  else s.modCh c fun ch => { ch with ntc := (v :: ch.ntc).take 8 }

/-- Thermal stop, and the return from HOT with g_th at FOLDMAX (R275). -/
def thermalStop (c : ChanId) (s : State) : State :=
  let ch := s.pcd.ch[c]
  match s.stoppers c with
  | src :: _ =>
    if (ch.st = .run ∧ ch.stopWhy = none) ∨ ch.st = .rampUp then
      goQuiet c .thermal (s.modCh c fun ch => { ch with hotSrc := src })
    else s
  | [] =>
    if ch.st = .hot ∧ s.cool c then
      let s := s.modCh c fun ch => { ch with gth := ch.cfg.foldMax, folding := true }
      if s.pcdHeld then chTo c .off (s.modCh c fun ch => { ch with wasRun := true }) else rampUp c s
    else s

/-- THERMAL_READING (R273, R275). -/
def execThermalReading (t : Temps) (s : State) : Out :=
  done <|
    let s := forIdx 16 (fun c s => ntcRead c t.ntc[c] s) s
    let s := { s with pcd.pcdT := (t.pcd :: s.pcd.pcdT).take 8, pcd.dieT := (t.die :: s.pcd.dieT).take 8,
                      pcd.dieIn := (s.pcd.tFoldDie, s.pcd.tStopDie),
                      pcd.ch := vmap (fun (c : Chan) => { c with fetIn := (c.cfg.tFold, c.cfg.tStop) }) s.pcd.ch }
    forIdx 16 thermalStop s

/-- The step of g_th at a tick, with PWR_FOLD when folding starts and when g_th is back at 0 dB (R274). -/
def foldStep (c : ChanId) (s : State) : State :=
  let ch := s.pcd.ch[c]
  let d : Rat := 1 / (s.clk.mrate.hz : Nat)
  match s.folders c with
  | src :: _ =>
    let gov := if ch.stopWhy = some .thermal then ch.hotSrc else src
    let s := s.modCh c fun ch => { ch with gth := max (ch.cfg.foldMax : Rat) (ch.gth - d), folding := true, hotSrc := gov }
    if ch.folding then s else raise 0x870A [wordN c.val, 1, wordN src] s
  | [] =>
    if s.cool c then
      let g := min 0 (ch.gth + d)
      let s := s.modCh c fun ch => { ch with gth := g, folding := decide (g ≠ 0) }
      if ch.folding ∧ g = 0 then raise 0x870A [wordN c.val, 0, wordN ch.hotSrc] s else s
    else s

/-! ### Line supervision (R276, R277) -/

/-- |z|² of a complex number. -/
def sq2 (re im : Rat) : Rat := re * re + im * im

/-- The nearest integer to the square root of a rational. -/
def sqrtNear (x : Rat) : Nat := (isqrt ((4 * x).floor.toNat) + 1) / 2

/-- δ² = |Z − Z_sig|² / |Z_sig|². -/
def delta2 (z : Int × Int) (sig : Rat × Rat) : Rat := sq2 (z.1 - sig.1) (z.2 - sig.2) / sq2 sig.1 sig.2

/-- The angle of Z in 0.01°; only its rounding is free. -/
def angleOf (re im : Rat) : Int := nearInt (Config.angle re im) (angleFloor re im) false

/-- Channel, |Z| in mΩ, its angle in 0.01°, δ in 0.1 %. -/
def linePayload (c : ChanId) (re im : Rat) (d2 : Rat) : List Word :=
  [wordN c.val, wordN (sqrtNear (sq2 re im)), wordI (angleOf re im), wordN (sqrtNear (1000000 * d2))]

/-- A learned window; the tenth completes the signature, which is stored and reported with LINE_OK. -/
def learnStep (c : ChanId) (z : Int × Int) (s : State) : State :=
  let l := z :: s.pcd.ch[c].learn
  if l.length < 10 then s.modCh c fun ch => { ch with learn := l }
  else
    let re : Rat := (l.foldl (fun a x => a + x.1) 0 : Int) / 10
    let im : Rat := (l.foldl (fun a x => a + x.2) 0 : Int) / 10
    let s := s.modCh c fun ch => { ch with zSig := some (re, im), learn := [], learning := false, devRun := 0, okRun := 0 }
    raise 0x8712 (linePayload c re im 0) (sealSignature c s)

/-- Three windows in a row beyond LSDEV, or within 0.8 × LSDEV. -/
def deviationStep (c : ChanId) (z : Int × Int) (sig : Rat × Rat) (lsdev : Nat) (s : State) : State :=
  let ch := s.pcd.ch[c]
  let d2 := delta2 z sig
  let lim : Rat := (lsdev : Rat) / 100
  let dev := if lim * lim < d2 then ch.devRun + 1 else 0
  let ok := if d2 ≤ (8/10 * lim) * (8/10 * lim) then ch.okRun + 1 else 0
  let s := s.modCh c fun ch => { ch with devRun := min dev 4, okRun := min ok 4 }
  if dev = 3 then raise 0x8711 (linePayload c z.1 z.2 d2) s
  else if ok = 3 then raise 0x8712 (linePayload c z.1 z.2 d2) s
  else s

/-- LINE_SUPERVISION_WINDOW: an invalid window is skipped (R276, R277). -/
def execLineSupervisionWindow (c : ChanId) (z : LineZ) (s : State) : Out :=
  done <|
    let ch := s.pcd.ch[c]
    if ch.st = .run ∧ ch.lsupIn then
      let fast := s.clk.mrate.cycles = 8192
      let s := s.modCh c fun ch => { ch with winBad := false, lsdevIn := ch.cfg.lsdev }
      if ch.winBad ∨ (fast ∧ z.loud) then s
      else
        let s := s.modCh c fun ch => { ch with zNow := (z.re, z.im) }
        let s := match ch.zSig with
          | some sig => deviationStep c (z.re, z.im) sig ch.lsdevIn s
          | none => s
        if ch.learning then learnStep c (z.re, z.im) s else s
    else s

/-! ### Stream watchdog and supplies -/

/-- PCD_STREAM_WATCHDOG, after the tick periods without a frame that the watchdog allows: the PCD takes every channel quiet by itself
(R14, R279, R303). -/
def execPcdStreamWatchdog (gap : Nat) (refClock : Bool) (s : State) : Out :=
  done <|
    if s.pcd.streamLost ∨ gap < s.pcd.watch then s
    else
      let s := pcdQuiet .stream { s with pcd.streamLost := true, pcd.refClock := refClock }
      { s with pcd.ch := vmap (fun (c : Chan) =>
          if c.st = .run then { c with gch := c.gch.within 0 s.msCarriers } else c) s.pcd.ch }

/-- PCD_SUPPLY_LOW: every gate and every BGn goes low (R454). -/
def execPcdSupplyLow (s : State) : Out :=
  done <|
    let s := { s with pcd.supplyLow := true, pcd.streamLost := true, pcd.quiet := true,
                      pcd.rail := vmap (fun (r : Rail) => { r with bg := false }) s.pcd.rail }
    forIdx 16 (fun c s =>
      let ch := s.pcd.ch[c]
      if ch.st.switching then chQuiet c .off (s.modCh c fun ch => { ch with wasRun := ch.st = .run }) else s) s

/-- PCD_SUPPLY_RESTORED: Capo-S releases the PCD and restarts every channel that was in RUN, with diagnostics and RAMP_UP
(R454). -/
def execPcdSupplyRestored (s : State) : Out :=
  done <|
    if s.pcd.supplyLow then
      let s := { s with pcd.supplyLow := false, pcd.streamLost := false, pcd.quiet := s.isQuiet }
      if s.isQuiet then s
      else forIdx 16 (fun c s =>
        if s.pcd.ch[c].wasRun ∧ s.pcd.ch[c].st = .off then
          startDiag c false (s.modCh c fun ch => { ch with wasRun := false })
        else s) s
    else s

/-! ### Pins (R281, R282) -/

/-- MUTE_N_CHANGE: g_m moves over 9.9 ms, in carrier periods; no channel changes state (R281). -/
def execMuteNChange (high : Bool) (s : State) : Out :=
  done <|
    if s.pcd.muteHigh = high then s
    else
      let n : Rat := 99/10 * ((baseRate s.clk.mrate.family).hz : Nat) * 8 / 1000
      raise 0x8713 [wordN (boolN high)]
        (intset 3 { s with pcd.muteHigh := high, pcd.gm := s.pcd.gm.within (if high then 1 else 0) n })

end Sys2Proof.Machine
end

