-- ==== Sys2Proof/Machine/Tick.lean ====
section
/-! DEFINITION. TICK_BOUNDARY: the freeze, the changes due in the order of R21, the matrix, the start windows, the link and the
power stage (01 R18 to R22, 02 R34, R68, R69, 06 R168, R169, 09 R251, R259, 11 R303 to R306). -/
namespace Sys2Proof.Machine
open Sys2Proof

/-! ### Realignment (R303, R304) -/

/-- Core cycles of the tick that runs. -/
def State.tickLen (s : State) : Nat :=
  s.clk.mrate.cycles + (match s.clk.realign with | .longTick lx => lx | _ => 0)

/-- One boundary of a realignment with fade length n: what follows, and the factor of the columns. -/
def Realign.next (n : Nat) : Realign → Realign × Rat
  | .none => (.none, 1)
  | .held f => (.held f, f)
  | .fadeOut j lx f => if j < n then (.fadeOut (j + 1) lx f, f * ((n - 1 - j : Nat) : Rat) / n) else (.longTick lx, 0)
  | .longTick _ => (.fadeIn 1 0, 1 / (n : Rat))
  | .fadeIn j f => (if n ≤ j + 1 then .none else .fadeIn (j + 1) f, f + (1 - f) * (j + 1 : Nat) / n)

/-- The boundary ends the long tick. -/
def Clk.adopts (c : Clk) : Bool := match c.realign with | .longTick _ => true | _ => false

/-- The frame number that a member adopts: one above the last that its timing port, or its SPUR lane, has brought. -/
def State.segmentFrame (s : State) : Word :=
  match s.clk.actSrc with
  | some .ridge => (if s.link.timingWest then s.link.ports[1] else s.link.ports[0]).number + 1
  | some .spur => (s.link.ports[2]).number + 1
  | _ => s.clk.frame + 1

/-- The counters at a boundary (R303, R305, R306). -/
def tickCounters (s : State) : State :=
  let s := passCycles (s.tickLen - s.clk.cyc) s
  let s : State := { s with clk.cyc := 0, clk.tick := s.clk.tick + 1,
                            clk.frame := if s.standalone then s.clk.frame else if s.clk.adopts then s.segmentFrame else s.clk.frame + 1 }
  match s.clk.realign with
  | .fadeOut _ _ _ => s
  | _ => stepCounter s.clk.cntPend { s with clk.cntPend := 0 }

/-- The end of the long tick: ports in domain M fix their mapping again and count no slip; CLK_RETURN (R303). -/
def adopt (diff : Int) (s : State) : State :=
  let s := forIdx 12 (fun p s => s.modPort p fun x =>
    if x.st = .run ∧ x.inM then { x with rxBuf := [x.previous], txDone := max 1 x.txDone } else x) s
  match s.clk.actSrc with
  | some r => returnEvent r s.clk.lastE true diff s
  | none => s

/-! ### Faults that the end window found (R21 step 5, R68, R69, R169) -/

/-- A LIVE engine becomes FAULTED; its group fades from its last snapshot values, which the snapshot just frozen still holds. An outgoing
engine contributes zero from now on. -/
def faultEngine (e : EngId) (s : State) : State :=
  let x := s.eng[e]
  if x.st = .live ∧ x.faultDue then
    match x.grp with
    | none => s.modEng e (Engine.fault false)
    | some g =>
      if s.grp[g].owner = some e then
        let s := endCrossfade g (targetLeft g (s.modEng e (Engine.fault true)))
        fadeFrom g (s.groupSnap g) 1 (dropTunes g (s.modGrp g fun y =>
          { y with owner := none, waiting := y.waiting.map fun r => { r with live := x.liveArray, bank := x.bank } }))
      else
        (s.modEng e (Engine.fault false)).modGrp g fun y =>
          { y with xf := y.xf.map fun f => if f.outgoing = some e then { f with outgoing := none } else f }
  else s

/-! ### The freeze (R18, R69, R169) -/

/-- c × (j+1)/(K+1) + o × (K−j)/(K+1), rounded half up. -/
def blend (c o : Word) (k j : Nat) : Word :=
  let n : Int := k + 1
  BitVec.ofInt 32 ((2 * (c.toInt * (j + 1 : Nat) + o.toInt * (k - j : Nat)) + n) / (2 * n))

/-- The rows of a group that are due at this boundary; those of an owner whose last tick had a fault stay (R69). -/
def groupRows (s : State) (g : GrpId) : Vector Word 12 :=
  let y := s.grp[g]
  match y.fade, y.owner with
  | some f, _ => if f.j < 32 then vmap (fun v => scale32 v (32 - f.j) 32) f.vals else .replicate 12 0
  | none, none => .replicate 12 0
  | none, some o =>
    let new := s.eng[o].latch
    if s.eng[o].faultDue then s.groupSnap g else
    match y.xf with
    | none => new
    | some f =>
      if f.k ≤ f.j then new
      else
        let old : Vector Word 12 := match f.outgoing with
          | some q => if s.eng[q].faultDue then .replicate 12 0 else s.eng[q].latch
          | none => .replicate 12 0
        vof fun i => blend new[i] old[i] f.k f.j

/-- A group after its rows were taken. -/
def Group.frozen (y : Group) : Group :=
  { y with fade := match y.fade with | some f => if 32 ≤ f.j + 1 then none else some { f with j := f.j + 1 } | none => none,
           xf := y.xf.map fun f => { f with j := min f.k (f.j + 1) } }

/-- Number the values from a first row. -/
def rowsFrom (a : Nat) (l : List Word) : List (Nat × Word) := slotsFrom a l

/-- Every row of S_k. -/
def State.rows (s : State) : List (Nat × Word) :=
  ((idx 12).flatMap fun p => rowsFrom s.port[p].cfg.rxbase (portRows p s.port[p]))
  ++ rowsFrom 128 (s.mic.toList.map Mic.row)
  ++ rowsFrom 144 (s.gen.toList.map fun g => g.sample s.clk.mrate.hz (if s.standalone then s.clk.tick else s.clk.frame))
  ++ rowsFrom 160 (s.link.taps.toList.map fun t => match t with | some t => t.row | none => 0)
  ++ ((idx 16).flatMap fun g => rowsFrom (288 + 12 * g.val) (groupRows s g).toList)
  ++ ((idx 8).flatMap fun k => rowsFrom (480 + 4 * k.val) s.sad[k].out.toList)

/-- Freeze S_k: every source takes its place at the boundary, then the rows are taken (R18 step 1, R19). -/
def freeze (s : State) : State :=
  let s := forIdx 12 portBoundary s
  let s := forIdx 8 saddleBoundary s
  let s : State := { s with mic := vmap Mic.boundary s.mic }
  let s := linkBoundary s
  let snap : Mem 32 := s.rows.foldl (fun m x => m.set x.1 x.2) []
  { s with mtx.snap := snap, mtx.hist := (snap :: s.mtx.hist).take 960000, grp := vmap Group.frozen s.grp,
           gen := vmap (fun (g : Gen) => g.next s.clk.mrate.hz) s.gen }

/-! ### Changes due (R21, R22, R152 to R156) -/

/-- A change is due at this boundary. -/
def Sched.isDue (s : State) (e : Sched) : Bool :=
  match e.due with
  | .next => true
  | .tick k => decide (0 ≤ (s.clk.tick - k).toInt)
  | .frame f _ => decide (0 ≤ (s.clk.frame - f).toInt)

/-- The step of R21 that a change belongs to; settings come last. The rate, 0, and the generators, 5, change what the sources hand
over at the boundary itself, so they come before the freeze (log 120). -/
def Change.rank : Change → Nat
  | .rate _ => 0
  | .gen _ _ _ | .strike _ => 5
  | .swap _ _ => 1
  | .confirm _ | .commitGroup _ | .abort _ _ | .remove _ | .start _ _ | .audition _ | .place _ _ _ _ _ | .readOut _ _ | .engTest _
  | .freeBlocks _ _ _ | .graph _ => 2
  | .batch _ | .arm _ _ | .tx _ _ => 3
  | .clkSet _ | .counter _ => 4

/-- The change is made before the freeze. -/
def Change.early (c : Change) : Bool := c.rank = 0 || c.rank = 5

/-- A member that a swap skips: it has no LIVE owner, or R155 forbids it. -/
def State.swapSkips (s : State) (g : GrpId) : Bool :=
  s.tuneClash g || (match s.grp[g].owner with | some o => s.eng[o].st ≠ .live | none => true)

/-- A swap group at its boundary; the mask of skipped members (R153, R154). -/
def swapMany (gs : List GrpId) (s : State) : Word × State :=
  let skip := gs.filter s.swapSkips
  (maskOf skip, (gs.filter fun g => !s.swapSkips g).foldl (fun s g => swapGroup g s) s)

/-- Before a change between families every channel is on its way to OFF, and the controller of a group without a switching channel stops
with BGn low (R259). -/
def familyStop (s : State) : State :=
  let s := forIdx 16 (fun c s =>
    let ch := s.pcd.ch[c]
    if (ch.st = .run ∧ ch.stopWhy = none) ∨ ch.st = .rampUp then goQuiet c .stop (s.modCh c fun ch => { ch with wasRun := true }) else s) s
  forIdx 4 (fun r s =>
    if (idx 16).any fun (c : ChanId) => railOf c = r && s.pcd.ch[c].st.switching then s
    else s.modRail r fun x => { x with bg := false, idle := true, ref := s.vfloor r }) s

/-- After it, every channel that was running restarts with RAMP_UP, without a diagnostic unless it has tripped meanwhile (R259). -/
def familyStart (s : State) : State :=
  if s.pcdHeld then s
  else forIdx 16 (fun c s =>
    if s.pcd.ch[c].wasRun ∧ s.pcd.ch[c].st = .off then
      rampUp c (s.modCh c fun ch => ({ ch with wasRun := false } : Chan).latchSup)
    else s) s

/-- A rate of M of the other family waits until no channel switches (R259). -/
def State.familyWait (s : State) (m : MRate) : Bool := m.family ≠ s.clk.family && (idx 16).any fun (c : ChanId) => s.pcd.ch[c].st.switching

/-- The rate of M changes: what hands samples over at the boundary (R193, R199, R214, R237, R288), and the power stage between families. -/
def changeRate (m : MRate) (s : State) : State :=
  let old := s.clk.mrate
  if old = m then s
  else
    let f := s.clk.family
    let s := if m.family = f then s else familyStop s
    let s := ratePorts (rateGens old.hz m.hz { s with clk.mrate := m, clk.family := m.family })
    let s : State := { s with mic := vmap Mic.rate s.mic }
    if m.family = f then s else familyStart s

/-- What a changed rate of M does after the freeze: S_b still holds what the engines wrote before (R45). g_ch falls
by the same amount per tick, so that it would reach 0 exactly 2.0 ms on; where that is no boundary it is 0 at the next one (R259,
log 123). -/
def rateAfter (s : State) : State :=
  let s := rateEngines s.clk.mrate s
  let n : Rat := (s.clk.mrate.hz : Rat) / 500
  { s with
    pcd.ch := vmap (fun (c : Chan) =>
      if c.st = .run then { c with gch := c.gch.move 0 (c.gch.v / n), rateFall := true } else c) s.pcd.ch }

/-- A position is this device's. -/
def State.isMe (s : State) (p : Nat) : Bool := s.link.pos.any fun q => q.val = p

/-- The modules of a graph that are here. -/
def GraphPlan.here (p : GraphPlan) (s : State) : List GrpId := (p.mods.filter fun x => s.isMe x.1.val).map fun x => x.2.1

/-- A transmit column that a graph takes, or gives back: here, or through the tunnel with LINK_TX. -/
def graphTx (on : Bool) (x : Nat × Nat × Nat) (s : State) : State :=
  if s.isMe x.1 then setTx (fin 64 x.2.1) (if on then some (0, x.2.2) else none) s
  else sendOwn (fin 32 x.1) 0 0x0803 none [wordN (x.2.1 + boolN (!on) <<< 15), wordN x.2.2] s

/-- A tap that a graph takes, or gives back: here, or with LINK_TAP. -/
def graphTap (on : Bool) (x : Nat × Nat × Nat × Nat) (s : State) : State :=
  if s.isMe x.1 then
    setTap (fin 128 x.2.1) (if on then some (Tap.start 0 x.2.2.1 (fin 32 x.2.2.2) s.link.segid) else none) s
  else
    sendOwn (fin 32 x.1) 0 0x0804 none [wordN (x.2.1 + boolN (!on) <<< 15), wordN x.2.2.1, wordN (x.2.2.2 + s.link.segid.toNat <<< 8)] s

/-- What a graph's connections take, or give back; crosspoints elsewhere follow their own schedule. -/
def graphLinks (p : GraphPlan) (on : Bool) (s : State) : State :=
  let xps := (p.xps.filter fun x => s.isMe x.1).map fun x => if on then x.2 else { x.2 with val := 0 }
  let s := { batch xps s with
    link.grants := if on then s.link.grants ++ p.grants else s.link.grants.filter fun g => decide (g ∉ p.grants) }
  p.taps.foldl (fun s x => graphTap on x s) (p.tx.foldl (fun s x => graphTx on x s) s)

/-- Every module of a graph is ready: those here, and those elsewhere, which have also been sent its frame. -/
def State.graphReady (s : State) (p : GraphPlan) : Bool :=
  let far := s.link.cg.filter fun x => x.n = p.cgroup
  let here := p.here s
  (here = [] || (s.cgroupReady p.cgroup && (s.members p.cgroup).length = here.length)) && far.all (fun x => x.ready)
    && far.length + here.length = p.mods.length
    && (far = [] || (s.link.schedOut ++ s.link.schedSent).any fun x => x.kind = 2 && x.cgroup = p.cgroup)

/-- A graph at its frame: its modules commit and its connections are made, or, when a module is not ready, nothing changes and
every module is aborted (R170, R338). -/
def graphCommit (p : GraphPlan) (s : State) : State :=
  if s.graphReady p then graphLinks p true { (p.here s).foldl (fun s g => commitGroup g s) s with link.graph := some p }
  else dropGraph p (cancelCommit p.cgroup ((s.members p.cgroup).foldl (fun s g => atNext (.abort g 5) s) s))

/-- The graph is cleared at its frame. -/
def graphClear (s : State) : State :=
  match s.link.graph with
  | some p => graphLinks p false { dropInv p ((p.here s).foldl (fun s g => removeGroup g s) s) with link.graph := none }
  | none => s

/-- Make a change; the mask of groups that a swap skips. A swap that R152 moved is answered with OK_NOTE. -/
def applyChange (c : Change) (moved : Bool) (s : State) : Word × State :=
  match c with
  | .rate m => (0, if s.rateOk m then changeRate m s else s)
  | .swap mask reply =>
    let r := swapMany (bitsOf 16 mask) s
    (r.1, match reply with | some m => respond m (boolN moved) (boolN moved) [s.clk.tick, r.1] r.2 | none => r.2)
  | .confirm g => (0, commitGroup g s)
  | .commitGroup n => (0, if s.cgroupReady n then (s.members n).foldl (fun s g => commitGroup g s) s else s)
  | .abort g cause => (0, abortAudition g cause s)
  | .remove g => (0, removeGroup g s)
  | .start g e => (0, startLive g e s)
  | .audition g => (0, startAudition g s)
  | .place g a l f was => (0, placeFreed g a l f was s)
  | .readOut e retire => (0, readOut e retire s)
  | .engTest e => (0, testEngine e s)
  | .freeBlocks t g l => (0, s.modTile t fun m => m.freeBlocks (s.lost t g l))
  | .batch l => (0, batch l s)
  | .arm b rp => (0, { s with mtx.armed := b, mtx.rp := rp })
  | .gen i ty ps => (0, s.modGen i (Gen.set ty ps))
  | .strike mask => (0, (bitsOf 16 mask).foldl (fun s i => s.modGen i Gen.strike) s)
  | .clkSet l => (0, if s.clkFits l then applyClks l s else s)
  | .tx i x => (0, setTx i x s)
  | .counter d => (0, stepCounter d s)
  | .graph (some p) => (0, graphCommit p s)
  | .graph none => (0, graphClear s)

/-- The change can still be made: a commit needs its members ready (R167, R170), clock settings must still be allowed (R311). -/
def State.makes (s : State) (c : Change) : Bool :=
  match c with
  | .confirm g => (match s.audOf g with | some a => a.verdict = .pass && s.eng[a.cand].st = .candidate | none => false)
  | .commitGroup n => s.cgroupReady n
  | .graph (some p) => s.graphReady p
  | .clkSet l => s.clkFits l
  | .rate m => s.rateOk m
  | _ => true

/-- The boundary to which R152 moves a swap, R150 the start of a migration, or R259 a change between families. -/
def State.changeWait (s : State) (c : Change) : Option Word :=
  match c with
  | .swap mask _ => s.swapWait (bitsOf 16 mask)
  | .rate m => if s.rateOk m && s.familyWait m then some (s.clk.tick + 1) else none
  | .audition g => match s.audOf g with
    | some a => if a.same then s.swapWait [g] else none
    | none => none
  | _ => none

/-- A due entry: one that R152 or R150 holds stays, any other is made. -/
def runEntry (e : Sched) (s : State) : State :=
  match s.changeWait e.change with
  | some t =>
    let due : Due := match e.due with | .frame f id => .frame f id | _ => .tick t
    let s := match e.change with | .rate _ => familyStop s | _ => s
    { s with fw.sched := s.fw.sched ++ [{ e with due := due }] }
  | none =>
    match e.due with
    | .next => (applyChange e.change false s).2
    | .tick _ => (applyChange e.change true s).2
    | .frame f id =>
      let r := applyChange e.change false s
      schedEvent e.change f (id.getD 0) (if !s.makes e.change then 2 else if s.clk.frame = f then 0 else 3) r.1 r.2

/-- Entries of one step of R21, in the order in which they were accepted. -/
def runRank (l : List Sched) (k : Nat) (s : State) : State :=
  (l.filter fun e => e.change.rank = k).foldl (fun s e => runEntry e s) s

/-- A copy that R152 ends at this boundary. -/
def copyEnd (g : GrpId) (s : State) : State :=
  if s.grp[g].copyTo = some s.clk.tick then (copyDone g s).modGrp g fun y => { y with copyTo := none } else s

/-- A sync edge of SYNCSRC FRAME, made late where a realignment has stepped over its frame (R297, R303). -/
def frameSync (s : State) : State :=
  match s.clk.syncFrame with
  | none => s
  | some (f, id) =>
    if s.standalone ∨ (s.clk.frame - f).toInt < 0 then s
    else
      let t : State := { s with clk.syncFrame := none, clk.syncPend := match s.clk.syncPend with | some n => some n | none => some 128 }
      let late := s.clk.frame ≠ f
      raise 0x8404 [wordN id, 6, f, wordN (if late then 3 else 0), 0] { t with fw.made := (id, 6, f) :: t.fw.made.filter fun x => x.1 ≠ id }

/-- Engines that the firmware tests once they are SPARE (Ledger 06.2). -/
def State.testSpares (s : State) : List EngId :=
  (idx 20).filter fun e => s.eng[e].st = .spare && s.eng[e].testDue && s.eng[e].grp.isNone

/-- The changes due at this boundary that come before the freeze. -/
def early (s : State) : State :=
  let now (e : Sched) : Bool := Sched.isDue s e && e.change.early
  let due := s.fw.sched.filter now
  runRank due 5 (runRank due 0 { s with fw.sched := s.fw.sched.filter fun e => !now e })

/-- The other changes due at this boundary, in the order of R21; the flag says whether the rate of M changed here. -/
def changes (newRate : Bool) (s : State) : State :=
  let tests := s.testSpares
  let now (e : Sched) : Bool := Sched.isDue s e && !e.change.early
  let due := s.fw.sched.filter now
  let s : State := { s with fw.sched := s.fw.sched.filter fun e => !now e }
  let s := forIdx 16 copyEnd s
  let s := if newRate then rateAfter s else s
  let s := runRank due 3 (runRank due 2 (runRank due 1 s))
  let s := selectSet (s.mtx.armed && !s.mtx.prio) s
  let s := forIdx 20 faultEngine s
  let s := runRank due 4 s
  frameSync (tests.foldl (fun s e => atNext (.engTest e) s) s)

/-! ### Matrix, engines, power stage -/

/-- The matrix evaluates C_k; a realignment scales the columns (R304). -/
def tickMatrix (laneErr : Int) (s : State) : State :=
  let old := s.mtx.raw
  let s := evaluate laneErr s
  let r := s.clk.realign.next s.clk.mrate.fadeN
  { s with clk.realign := r.1, clk.factor := r.2, mtx.colPrev := s.mtx.col, mtx.rawPrev := old,
           mtx.col := scaledCols r.2 s.mtx.raw }

/-- An outgoing engine whose crossfade has run out. -/
def State.faded (s : State) (e : EngId) : Bool :=
  (idx 16).any fun g => match s.grp[g].xf with | some f => f.outgoing = some e && decide (f.k ≤ f.j) | none => false

/-- The start windows; BIST counts its ticks (R483). -/
def tickEngines (s : State) : State :=
  let s := forIdx 20 (fun e s =>
    let x := s.eng[e]
    if (x.st = .live ∨ x.st = .candidate) ∧ !x.clearing ∧ !s.faded e then s.modEng e (Engine.startTick s.clk.tick)
    else s.modEng e fun x => { x with stopped := true }) s
  forIdx 16 (fun g s => match s.grp[g].aud with
    | some a => if s.eng[a.cand].st = .candidate then s.modGrp g (Group.audRuns a) else s
    | none => s) s

/-- A BIST run at a boundary: its 256th tick ends it, with a free result where none has been reported (R483, log 130). -/
def bistTick (e : EngId) (s : State) : State :=
  let x := s.eng[e]
  if x.st ≠ .test then s
  else if 1 < x.bistLeft then s.modEng e fun x => { x with bistLeft := x.bistLeft - 1 }
  else
    let (n, s) := s.fresh
    let passed := (match x.bist with | some b => b | none => bit (Config.freeWord n) 0) && !x.bistBad
    raise 0x8507 [wordN e.val, wordN (boolN (!passed))]
      (s.modEng e fun x => if passed then { x with st := .spare, bistLeft := 0 } else { x with st := .idle, bistLeft := 0, retired := true })

/-- Every BIST run at a boundary. -/
def tickBist (s : State) : State := forIdx 20 bistTick s

/-- Mean contributions of the rows into a muted column (R271). -/
def dcCollect (c : ChanId) (s : State) : State :=
  let ch := s.pcd.ch[c]
  if !ch.dcOpen ∨ ch.dcUntil ≤ s.clk.now then s
  else
    let terms := (s.mtx.xp.filter fun x => x.1 % 256 = 224 + c.val && x.2.cur ≠ 0).map fun x =>
      (x.1 / 256, (s.mtx.snap.get (x.1 / 256)).toInt * x.2.cur)
    let add (l : List (Nat × Int)) (t : Nat × Int) : List (Nat × Int) :=
      if l.any fun y => y.1 = t.1 then l.map fun y => if y.1 = t.1 then (y.1, y.2 + t.2) else y else l ++ [t]
    s.modCh c fun ch => { ch with dcAcc := terms.foldl add ch.dcAcc, dcTicks := ch.dcTicks + 1 }

/-- The PCD still plays out samples of an old rate of M: none of the present rate has reached the modulator (R259). -/
def State.playsOld (s : State) (c : ChanId) : Bool :=
  let l := s.pcd.ch[c].look
  (l.any fun y => y.rate ≠ s.clk.mrate) && !l.any fun y => y.rate = s.clk.mrate && decide (1024 * s.lookDelay < y.age)

/-- The gain of a channel at a boundary, which waits at 0 until the samples of an old rate are played out (R251, R259); the pilot and its
windows begin with RUN (R276). -/
def gainStep (c : ChanId) (s : State) : State :=
  let ch := s.pcd.ch[c]
  if ch.toRun ∧ ch.st = .rampUp then
    (chTo c .run s).modCh c fun ch =>
      { ch with toRun := false, lsdevIn := ch.cfg.lsdev, winBad := false, pilotN := 0,
                rateFall := s.playsOld c, gch := if s.playsOld c then .at 0 else ((Lin.at 0).move 1 (1/480)).tick }
  else if ch.st ≠ .run ∨ s.pcd.streamLost then s
  else match ch.stopWhy with
    | some why => if ch.gch.v = 0 then rampDown c why s else s.modCh c fun ch => { ch with gch := ch.gch.tick, rateFall := false }
    | none =>
      s.modCh c fun ch =>
        if ch.rateFall ∧ ch.gch.v = 0 ∧ s.playsOld c then ch
        else if ch.rateFall ∧ ch.gch.v = 0 then { ch with rateFall := false, gch := (ch.gch.move 1 (1/480)).tick }
        else { ch with gch := ch.gch.tick }

/-- Samples grow older by a tick of n core cycles and leave the buffer 2.0 ms after they reached the modulator; a new one enters
(R13, R240). -/
def Chan.enter (x : Word) (rate : MRate) (n : Nat) (keep : Rat) (ch : Chan) : Chan :=
  { ch with look := { v := x, age := 0, rate := rate } :: (ch.look.map fun y => { y with age := y.age + n }).filter fun y => (y.age : Rat) < keep,
            half := if ch.mid.isSome then -1 else 0 }

/-- A channel at boundary t, after a tick of n core cycles: C_(t−2) enters the look-ahead buffer (R13), gains move, a clipped tick
counts (R242). -/
def chanTick (n : Nat) (c : ChanId) (s : State) : State :=
  let ch := s.pcd.ch[c]
  let clip := if ch.clipped then satInc ch.clip else ch.clip
  let x := s.mtx.colPrev[fin 256 (224 + c.val)]
  let s := s.modCh c fun ch =>
    { (dcDetect x n s (ch.enter x s.clk.mrate n (2048 * s.lookDelay))) with clip := clip, clipped := false, gdc := ch.gdc.tick }
  foldStep c (gainStep c (cntSat (cntId 8 c.val 0) ch.clip clip s))

/-- The rail of a group at a boundary: settings enter E (R256, R258). -/
def Rail.tick (r : Rail) : Rail :=
  { r with bp := 0, vmaxIn := r.vmax, vidleIn := r.vidle, headIn := r.headroom }

/-- The package link runs again: Capo-S releases the PCD while the device is not quiet (R14). -/
def streamBack (s : State) : State :=
  if s.pcd.streamLost ∧ !s.isQuiet ∧ !s.pcd.supplyLow then pcdRelease { s with pcd.streamLost := false } else s

/-- The carriers after a tick of n core cycles: a long tick leaves their periods late against the boundary until they are re-phased,
2.0 ms after it (R303, log 123). -/
def carriers (n delay : Nat) (long : Bool) (p : Pcd) : Pcd :=
  if long then { p with skew := (p.skew + 2048 - n % 2048) % 2048, rephase := delay }
  else if p.rephase = 0 then p
  else if p.rephase ≤ n then { p with rephase := 0, skew := 0 }
  else { p with rephase := p.rephase - n }

/-- The power stage at a boundary, after a tick of n core cycles, while C still holds C_(k−1); the package-link frame before the long tick has
extended the stream watchdog for it (R303). -/
def tickPower (n : Nat) (long : Bool) (s : State) : State :=
  let s : State := { s with pcd := carriers n (1024 * s.lookDelay).ceil.toNat long s.pcd }
  let next := (s.clk.realign.next s.clk.mrate.fadeN).1
  let s := streamBack { s with pcd.refClock := true, pcd.watch := match next with | .longTick _ => 4 | _ => 2,
                               pcd.rail := vmap Rail.tick s.pcd.rail }
  forIdx 16 (chanTick n) s

/-- One tick boundary. -/
def tickAll (laneErr : Int) (s : State) : State :=
  let adopts := s.clk.adopts
  let len := s.tickLen
  let diff := s.clk.cntPend
  let s := tickCounters s
  let s := if adopts then adopt diff s else s
  let s := tickBist s
  let rate := s.clk.mrate
  let s := early s
  let newRate : Bool := s.clk.mrate ≠ rate
  let s := freeze s
  let s := tickPower len adopts s
  let s := changes newRate s
  let s := tickMatrix laneErr s
  originate (tickEngines (forIdx 16 dcCollect s))

end Sys2Proof.Machine
end

