-- ==== Sys2Proof/Machine/CmdOps.lean ====
section
/-! DEFINITION. What every firmware command shares: the header, the checks in the order of R375, responses, schedules, the
forward to workers and twins, handles and outbound bulk data (14 R373 to R379, 12 R335, R336). -/
namespace Sys2Proof.Machine
open Sys2Proof

/-! ### Failures (R374) -/

/-- What a failed check answers. -/
structure Fail where
  status : Nat
  info   : Nat
  ws     : List Word
deriving DecidableEq, Repr

/-- A failure with no result. -/
def Fail.of (status : Nat) : Fail := { status := status, info := 0, ws := [] }

/-- E_RESERVED or E_RANGE at bit b of word w of entry i. -/
def eReserved (w b i : Nat) : Fail := { status := 0x10, info := 0, ws := [wordN (w + 256 * b), wordN i] }
def eRange (w b i : Nat) : Fail := { status := 0x11, info := 0, ws := [wordN (w + 256 * b), wordN i] }

def eLength : Nat := 0x12
def eMailbox : Nat := 0x13
def eState : Nat := 0x20
def eBusy : Nat := 0x21
def eResource : Nat := 0x22
def eLate : Nat := 0x23
def eNotActive : Nat := 0x24
def eNotMember : Nat := 0x25
def eConflict : Nat := 0x26
def eInternal : Nat := 0xFF

/-- The first failure of a list of checks. -/
def firstOf : List (Option Fail) → Option Fail
  | [] => none
  | some f :: _ => some f
  | none :: l => firstOf l

/-- A check that fails with f unless b holds. -/
def need (b : Bool) (f : Fail) : Option Fail := if b then none else some f

/-! ### The header (R373) -/

def cmdOf (m : Msg) : Nat := fld m.w[0] 0 16
def isAt (m : Msg) : Bool := bit m.w[0] 25
def isFwd (m : Msg) : Bool := bit m.w[0] 26
def destOf (m : Msg) : Fin 32 := fin 32 (fld m.w[0] 27 5)

/-- A message is one of the command with this code. -/
def wfCmd (code : Nat) (m : Msg) : Bool := cmdOf m = code

/-! ### Fields (R375, R381) -/

/-- Bits lo to lo + n − 1 of word w. -/
def mfld (w lo n : Nat) (m : Msg) : Nat := fld (mword m w) lo n

/-- Reserved bits are zero. -/
def fZero (w lo n : Nat) (m : Msg) : Option Fail := need (mfld w lo n m = 0) (eReserved w lo 0)

/-- A number from a to b. -/
def fRange (w lo n a b : Nat) (m : Msg) : Option Fail :=
  need (a ≤ mfld w lo n m && mfld w lo n m ≤ b) (eRange w lo 0)

/-- A signed word from a to b. -/
def fInt (w : Nat) (a b : Int) (m : Msg) : Option Fail :=
  need (decide (a ≤ (mword m w).toInt) && decide ((mword m w).toInt ≤ b)) (eRange w 0 0)

/-- An encoding from 0 to b; others are unassigned. -/
def fCode (w lo n b : Nat) (m : Msg) : Option Fail := need (mfld w lo n m ≤ b) (eReserved w lo 0)

/-- A mask of n items in a whole word: neither empty nor beyond the items. -/
def fMask (w n : Nat) (m : Msg) : Option Fail :=
  need (mfld w 0 32 m ≠ 0 && mfld w 0 32 m < 2 ^ n) (eRange w 0 0)

/-- Two lists of items, each within n and not both with one item (CLK_AS, PORT_MIC). -/
def fPairMask (w n : Nat) (m : Msg) : Option Fail := need (mfld w 0 32 m < 2 ^ n) (eRange w 0 0)

/-- Every word from word k up to W(LEN−1) is zero. -/
def fTail (k : Nat) (m : Msg) : Option Fail :=
  firstOf ((List.range 16).map fun i => if k ≤ i ∧ i < m.len.toNat then fZero i 0 32 m else none)

/-! ### A command -/

/-- A command: its code, the mailboxes and marks of its row, the words that it needs, its checks of steps 5 and 6 of R375, and
its effect with the response, given the frame of a schedule. Step 7 is the first part of the effect. -/
structure Cmd where
  code   : Nat
  /-- MBI3 accepts it too -/
  safety : Bool := false
  /-- it may carry AT -/
  timed  : Bool := false
  /-- it runs before step 8 of R415 is complete -/
  early  : Bool := false
  /-- KIND of the schedule that carries it -/
  kind   : Msg → Nat := fun _ => 0
  len    : Msg → Nat := fun _ => 8
  /-- the rate of M that it gives every member of a segment (R331) -/
  wide   : Msg → Option MRate := fun _ => none
  /-- what the manager refuses instead of forwarding it -/
  sends  : State → Msg → Option Fail := fun _ _ => none
  check  : State → Msg → Option Fail
  act    : Msg → Option Word → State → State

/-! ### Responses -/

/-- A response that refuses: it is never held for the standby. -/
def refuse (m : Msg) (f : Fail) (s : State) : State := queueReply none (answer m f.status f.info f.ws) s

def deny (m : Msg) (status : Nat) (s : State) : State := refuse m (.of status) s

/-- OK with results. -/
def ok (m : Msg) (ws : List Word) (s : State) : State := respond m 0 0 ws s

/-- The effect of a command whose state check has a result: the refusal, or the effect. -/
def orElse (m : Msg) (f : Option Fail) (t : State → State) (s : State) : State :=
  match f with | some f => refuse m f s | none => t s

/-! ### Schedules (R156, R376, R377) -/

/-- The boundary that a response names: the frame, or the next tick. -/
def State.boundary (s : State) (frame : Option Word) : Word := frame.getD (s.clk.tick + 1)

/-- A device without a segment position knows no frame. -/
def State.positioned (s : State) : Bool := !s.standalone && s.link.pos.isSome

/-- The state checks on AT. -/
def atFail (m : Msg) (s : State) : Option Fail :=
  if isAt m then
    firstOf [need s.positioned (.of eNotMember), need (decide (16 ≤ (mword m 1 - s.clk.frame).toInt)) (.of eLate)]
  else none

/-! ### Steps 1 to 4 of R375 -/

def entryFail (c : Cmd) (m : Msg) : Option Fail :=
  firstOf [fZero 0 24 1 m, need (!isAt m || c.timed) (eReserved 0 25 0), need (isFwd m || mfld 0 27 5 m = 0) (eReserved 0 27 0),
    need (m.box = 0 || (m.box = 3 && c.safety)) (.of eMailbox), need (c.len m ≤ m.len.toNat) (.of eLength),
    need (isAt m || mword m 1 = 0) (eReserved 1 0 0)]

/-- The firmware executes every command: its start, or the reading back of a restart, is complete (R415). -/
def State.serves (s : State) : Bool := s.fw.started && !s.fw.reading

/-- What stops a command before its checks: the ROM knows three, the firmware's start eight (R399, R415). -/
def gateFail (c : Cmd) (s : State) : Option Fail :=
  if s.boot.phase = .firmware then
    need (s.serves || c.early) { status := eState, info := 1, ws := [] }
  else need (c.code = 0x0101 || c.code = 0x0105 || c.code = 0x0A01) (.of eState)

/-! ### Forwarding (R377, R378) and twins (R335) -/

/-- W0 without AT, FWD and DEST, and W0 as a worker receives it. -/
def strip (m : Msg) (frame : Option Word) : Msg :=
  let w0 := m.w[0] &&& 0x01FFFFFF ||| (if frame.isSome then 0x02000000 else 0)
  { m with w := (m.w.set 0 w0).set 1 (frame.getD 0) }

/-- The frame of a command. -/
def frameOf (m : Msg) : Option Word := if isAt m then some (mword m 1) else none

/-- The position of the device that is a twin of position p. -/
def State.twinOf (s : State) (p : Nat) : Option Nat :=
  (s.link.twins.find? fun t => t.a = p || t.b = p).map fun t => if t.a = p then t.b else t.a

/-- Commands that the manager applies to both twins: ENG, TUNE, route batches and PWR. -/
def twinned (code : Nat) : Bool := (0x0500 ≤ code && code < 0x0800) || code = 0x0401 || code = 0x0402

/-- The positions to which a forwarded command goes, in order of position: the manager's own names every positioned worker, which a standby
manager is not (log 96). -/
def State.dests (s : State) (m : Msg) : List (Fin 32) :=
  let d := destOf m
  if s.link.pos = some d then (idx 32).filter fun p => p ≠ d && !(s.link.paired && p.val = s.link.stbyPos) && s.link.members.any fun x => x.pos = p.val
  else match (if twinned (cmdOf m) then s.twinOf d.val else none) with
    | some q => [d, fin 32 q]
    | none => [d]

/-- The commands of twins that only read. -/
def readsOnly (code : Nat) : Bool := decide (code ∈ [0x0506, 0x0509, 0x0603, 0x0702, 0x0706])

/-- A command that would make the programs or parameters of two twins differ: one of them takes it and the other cannot (R335). -/
def State.splitsTwins (s : State) (code : Nat) (ds : List (Fin 32)) (here : Bool) : Bool :=
  let takes (p : Nat) : Bool := (here && s.link.pos.any fun q => q.val = p) || ds.any fun d => d.val = p && !s.absent p
  twinned code && !readsOnly code && s.link.twins.any fun t => takes t.a != takes t.b

/-- What the manager keeps of a command for another device that concerns a commit group: a new member, or the key of the
confirmation (R170). -/
def noteMember (d : Fin 32) (m : Msg) (s : State) : State :=
  let g := fin 16 (mfld 2 0 4 m)
  let n := fin 16 (mfld 2 16 4 m)
  let me (x : CgMember) : Bool := x.pos = d && x.grp = g
  if cmdOf m = 0x0503 ∧ n ≠ 0 then
    let auto := mfld 2 12 2 m = 2 || (mfld 2 12 2 m = 0 && mfld 2 8 4 m = 0)
    let x : CgMember := { n := n, pos := d, grp := g, auto := auto, ready := false, key := keyOf m }
    { s with link.cg := (s.link.cg.filter fun x => !me x) ++ [x] }
  else if cmdOf m = 0x0504 then
    { s with link.cg := s.link.cg.map fun x => if me x then { x with key := keyOf m } else x }
  else s

/-- The manager tunnels a command to a device. -/
def tunnelTo (d : Fin 32) (m : Msg) (s : State) : State :=
  noteMember d m { s with link.tunnelOut := s.link.tunnelOut ++ [(d, m)] }

/-- The manager sends the schedule of a change that a command carries (R156). -/
def sendSchedule (f : Word) (kind target : Nat) (all : Bool) (key : Nat) (s : State) : State :=
  if kind = 0 then s
  else
    let x : SchedOut := { f := f, kind := kind, id := s.link.nextSched, target := target, all := all, cgroup := 0, key := key }
    { s with link.schedOut := s.link.schedOut ++ [x], link.nextSched := (s.link.nextSched + 1) % 4096 }

/-- Schedules that a command to some devices takes. -/
def schedules (c : Cmd) (m : Msg) (n : Nat) : Nat := if c.kind m = 0 then 0 else n

/-- The frame of a command to n twins: its own, or one of the manager's. -/
def pairFrame (c : Cmd) (m : Msg) (n : Nat) (s : State) : Option Word × State :=
  match frameOf m with
  | some f => (some f, s)
  | none => if 1 < n && c.timed && twinned c.code then let (f, t) := s.pickFrame (schedules c m n - 1); (some f, t) else (none, s)

/-- The manager sends no schedule for a frame fewer than 64 after the one in which it would go out (R157, R377). -/
def sendFail (c : Cmd) (m : Msg) (n : Nat) (several : Bool) (s : State) : Option Fail :=
  need (!isAt m || !(several || c.kind m ≠ 0) || s.farEnough (schedules c m n - 1) (mword m 1)) (.of eLate)

/-- Members other than this device that are not among some. -/
def State.otherMembers (s : State) (ds : List (Fin 32)) : List (Fin 32) :=
  (idx 32).filter fun p => s.link.pos ≠ some p && !ds.contains p && s.link.members.any fun x => x.pos = p.val

/-- The manager gives a rate of M to members by commands of its own (R331). -/
def spreadRate (r : MRate) (f : Word) (ds : List (Fin 32)) (s : State) : State :=
  ds.foldl (fun s d => sendOwn d 0 0x0201 (some f) [0x21, wordN r.code] s) s

/-- FWD = 1 (R378). A rate of M goes to every member, this one among them (R331). -/
def forward (c : Cmd) (m : Msg) (s : State) : State :=
  if s.standalone ∨ !s.link.active then deny m eNotActive s
  else
    let ds := s.dests m
    let all := s.link.pos = some (destOf m)
    let wide := if isAt m then c.wide m else none
    let n := if all || wide.isSome then 1 else ds.length
    match firstOf [c.sends s m, sendFail c m n (decide (1 < ds.length)) s, need (!s.splitsTwins c.code ds false) (.of eConflict)] with
    | some f => refuse m f s
    | none =>
      let (f, s) := pairFrame c m (if all then 1 else ds.length) s
      let s := ds.foldl (fun s d => tunnelTo d (strip m f) s) s
      let s := if all || m.box = 0 then await (ds.map some) m s else s
      match f, wide with
      | some f, some r =>
        sendSchedule f (c.kind m) (destOf m).val true (keyOf m) (schedule (.rate r) (some f) (spreadRate r f (s.otherMembers ds) s))
      | some f, none =>
        if all then sendSchedule f (c.kind m) (destOf m).val true (keyOf m) s
        else ds.foldl (fun s d => sendSchedule f (c.kind m) d.val false (keyOf m) s) s
      | none, _ => s

/-- The partner of this device when it is the active manager and one of two twins. -/
def State.twinHere (s : State) : Option (Fin 32) :=
  if s.link.active && !s.standalone then (s.link.pos.bind fun p => s.twinOf p.val).map (fin 32) else none

/-- The manager's own command with a rate of M for the segment: every member has it (R331). -/
def spreadHere (c : Cmd) (m : Msg) (s : State) : State :=
  match (if s.link.active && s.positioned then c.wide m else none), frameOf m with
  | some r, some f => sendSchedule f (c.kind m) 0 true 0 (spreadRate r f (s.otherMembers []) s)
  | _, _ => s

/-- The manager sends a schedule for its own command. -/
def State.spreads (s : State) (c : Cmd) (m : Msg) : Bool :=
  s.link.active && s.positioned && (c.wide m).isSome && decide (s.otherMembers [] ≠ [])

/-- Steps 5 to 7 and the effect on this device; a manager that is a twin passes the command on to its partner, and a rate of M to every
member. -/
def runHere (c : Cmd) (m : Msg) (s : State) : State :=
  match firstOf [c.check s m, atFail m s] with
  | some f => refuse m f s
  | none =>
    match (if twinned c.code then s.twinHere else none) with
    | some q =>
      match firstOf [sendFail c m 1 true s, need (!s.splitsTwins c.code [q] true) (.of eConflict)] with
      | some f => refuse m f s
      | none =>
        let (f, s) := pairFrame c m 2 s
        let s := tunnelTo q (strip m f) s
        let s := match f with | some f => sendSchedule f (c.kind m) q.val false (keyOf m) s | none => s
        c.act m f s
    | none =>
      match (if s.spreads c m then sendFail c m 1 true s else none) with
      | some f => refuse m f s
      | none =>
        let t := c.act m (frameOf m) s
        if s.spreads c m ∧ t.fw.sched.length ≠ s.fw.sched.length then spreadHere c m t else t

/-- A command that the firmware, or the ROM, takes up. -/
def runCmd (c : Cmd) (m : Msg) (s : State) : State :=
  match firstOf [gateFail c s, entryFail c m] with
  | some f => refuse m f s
  | none => if isFwd m then forward c m s else runHere c m s

/-! ### Consumption (R364, R370, R371, R393) -/

/-- A message on MBI3 restarts the keep-alive interval and ends a lapse (R371, R393). -/
def keepAlive (s : State) : State :=
  let s : State := { s with fw.kaLapsed := false }
  if bit s.sup.quiet 2 then raise 0x8106 [wordN (boolN s.fw.kaQuiet)] (clearQuiet 4 s) else s

/-- A command that is dropped because its response queue is full (R370). -/
def dropCmd (m : Msg) (s : State) : State :=
  let s := if m.box = 0 then
      cntSat (cntId 0x0E 0 0) s.fw.drop0 (satInc s.fw.drop0) { s with fw.drop0 := satInc s.fw.drop0 }
    else cntSat (cntId 0x0F 0 0) s.fw.drop3 (satInc s.fw.drop3) { s with fw.drop3 := satInc s.fw.drop3 }
  raise 0x8104 [wordN m.box.val, m.w[0]] s

/-- What consuming a message does, whatever the message orders; nothing while Capo-H does not run. -/
def arrive (f : State → State) (m : Msg) (s : State) : State :=
  if s.boot.phase = .firmware ∧ !s.sup.restarting then
    let s := if m.box = 3 then keepAlive s else s
    if m.box = 2 then raise 0x8103 [] s
    else if (m.box = 0 ∨ m.box = 3) ∧ 32 ≤ s.queued m.box then dropCmd m s
    else f s
  else if s.boot.phase = .rom ∧ (s.host.ready ∨ s.link.tunnelled) then f s
  else s

/-- A row of Tables 14.5 to 14.9. -/
def row (c : Cmd) (mnemonic : String) (m : Msg) (s : State) : Out :=
  ifWf (wfCmd c.code m) mnemonic <| done <| arrive (runCmd c m) m s

/-! ### Handles (R379) -/

/-- The object of a completed handle whose status was OK and whose kind is this one. -/
def State.object (s : State) (h : Nat) (k : XferKind) : Option (List Byte) :=
  if 1 ≤ h ∧ h ≤ 8 then
    match s.fw.handle[fin 8 (h - 1)] with
    | some x => if x.kind = k ∧ x.status = some 0 then some x.bytes else none
    | none => none
  else none

/-- A handle field: 1 to 8. -/
def fHandle (w lo n : Nat) (m : Msg) : Option Fail := fRange w lo n 1 8 m

/-- A word of an object, little-endian. -/
def objWord (l : List Byte) (i : Nat) : Word := wordN (le32 l (4 * i))

/-! ### Outbound bulk data (R379) -/

/-- Fragments of up to 14 words from a byte offset on. -/
def fragments (handle : Half) : Nat → Nat → List Word → List Msg
  | 0, _, _ => []
  | k + 1, off, l =>
    if l = [] then []
    else mkMsg 1 (0x01000001 :: wordN (off + if off = 0 then handle.toNat <<< 16 else 0) :: l.take 14)
      :: fragments handle k (off + 56) (l.drop 14)

/-- Send words as an outbound transfer; its handle. -/
def sendBulk (l : List Word) (s : State) : Word × State :=
  let (n, s) := s.fresh
  let h : Half := (Config.freeWord n).truncate 16
  (h.zeroExtend 32, { s with fw.outHandle := h.toNat, fw.bulkOut := s.fw.bulkOut ++ fragments h l.length 0 l })

/-! ### Settings (R380, Table 14.4) -/

/-- The group of a setting and its number of items: 1 PORT, 2 CLK, 3 PWR; 0 unassigned. -/
def settingScope (id : Nat) : Nat × Nat :=
  if 0x01 ≤ id ∧ id ≤ 0x0E then (1, 12)
  else if id = 0x22 ∨ id = 0x23 then (2, 2)
  else if 0x25 ≤ id ∧ id ≤ 0x28 then (2, 4)
  else if 0x29 ≤ id ∧ id ≤ 0x2C then (2, 8)
  else if 0x20 ≤ id ∧ id ≤ 0x2D then (2, 1)
  else if 0x43 ≤ id ∧ id ≤ 0x48 then (3, 4)
  else if id = 0x4C ∨ id = 0x4D then (3, 1)
  else if 0x40 ≤ id ∧ id ≤ 0x50 then (3, 16)
  else (0, 0)

/-- A setting that AES ports do not have. -/
def sapOnly (id : Nat) : Bool := (1 ≤ id && id ≤ 6) || id = 8 || id = 0x0D

/-- The lowest and highest value of a setting. -/
def settingRange (id : Nat) : Int × Int :=
  match id with
  | 0x01 | 0x03 | 0x2B | 0x43 => (0, 2)
  | 0x02 => (1, 32)
  | 0x07 => (0, 255)
  | 0x08 => (0, 15)
  | 0x09 => (0, 127)
  | 0x0A => (0, 63)
  | 0x0C => (16, 4096)
  | 0x0D => (1, 256)
  | 0x0E => (0, 65535)
  | 0x20 => (0, 0x55555555)
  | 0x21 => (0, 3)
  | 0x22 => (1, 8)
  | 0x23 => (8, 16)
  | 0x24 => (0, 2000)
  | 0x26 => (96, 143)
  | 0x27 => (0, 16777215)
  | 0x28 => (8, 64)
  | 0x29 => (0, 5)
  | 0x2A => (1, 65536)
  | 0x40 => (10, 600)
  | 0x41 => (20, 200)
  | 0x42 => (1, 64)
  | 0x44 => (24, 120)
  | 0x45 => (0, 120)
  | 0x46 => (4, 20)
  | 0x47 => (2048, 4096)
  | 0x48 => (20, 200)
  | 0x49 => (10, 140)
  | 0x4A => (80, 130)
  | 0x4B => (85, 140)
  | 0x4C => (110, 140)
  | 0x4D => (115, 145)
  | 0x4E => (-12, -3)
  | 0x50 => (5, 50)
  | _ => (0, 1)

/-- Settings whose values are encodings: a value outside them is unassigned. -/
def isCode (id : Nat) : Bool :=
  decide (id ∈ [0x01, 0x03, 0x05, 0x06, 0x08, 0x0B, 0x20, 0x21, 0x25, 0x29, 0x2B, 0x2D, 0x43, 0x4F])

/-- Nibbles of REFORDER after the one that ends the list are zero; each is an assigned source. -/
def refNibbles (ended : Bool) : Nat → Nat → Bool
  | 0, _ => true
  | k + 1, v =>
    let x := v % 16
    if ended then x = 0 && refNibbles true k (v / 16)
    else x ≤ 5 && refNibbles (x = 0) k (v / 16)

/-- The value of a pair, at word w. -/
def valueFail (id : Nat) (v : Word) (w : Nat) : Option Fail :=
  let x := v.toInt
  let (a, b) := settingRange id
  let out := !(decide (a ≤ x) && decide (x ≤ b))
  if id = 0x07 then
    firstOf [need (fld v 0 4 = 0 || 8 ≤ fld v 0 4) (eReserved w 0 0), need (fld v 5 3 ≠ 7) (eReserved w 5 0),
      need (fld v 8 24 = 0) (eReserved w 8 0)]
  else if out then some (if isCode id then eReserved w 0 0 else eRange w 0 0)
  else if id = 0x08 ∧ 1 ≤ x ∧ x ≤ 7 then some (eReserved w 0 0)
  else if id = 0x20 ∧ !refNibbles false 8 v.toNat then some (eReserved w 0 0)
  else if id = 0x45 ∧ 0 < x ∧ x < 24 then some (eRange w 0 0)
  else if id = 0x28 ∧ x % 2 ≠ 0 then some (eRange w 0 0)
  else none

/-- The first word of a pair of a group, at word w. -/
def pairFail (group : Nat) (a : Word) (w : Nat) : Option Fail :=
  let id := fld a 0 8
  let i := fld a 8 8
  let sc := settingScope id
  firstOf [need (sc.1 = group) (eReserved w 0 0), need (!(sapOnly id && 8 ≤ i && i < 12)) (eReserved w 8 0),
    need (i < sc.2) (eRange w 8 0), need (fld a 16 16 = 0) (eReserved w 16 0)]

/-- A pair: ID, index, value and the word of its first word. -/
structure Pair where
  id : Nat
  i  : Nat
  v  : Word
  w  : Nat
deriving DecidableEq, Repr

/-- The pairs of a message from word w on: the first ID 0 or the end of the message ends the list. -/
def pairsFrom (m : Msg) : Nat → Nat → List Pair
  | 0, _ => []
  | k + 1, w =>
    let a := mword m w
    if w < m.len.toNat ∧ fld a 0 8 ≠ 0 then
      { id := fld a 0 8, i := fld a 8 8, v := mword m (w + 1), w := w } :: pairsFrom m k (w + 2)
    else []

def pairs (m : Msg) : List Pair := pairsFrom m 7 2

/-- The words that a SET command uses. -/
def pairsLen (m : Msg) : Nat := max 8 (2 + 2 * (pairs m).length)

/-- Every pair of a SET command, in order, with what a pair must meet beyond Table 14.4, then the unused words. -/
def setFail (group : Nat) (more : Pair → Option Fail) (m : Msg) : Option Fail :=
  firstOf ((pairs m).map (fun p => firstOf [pairFail group (mword m p.w) p.w, valueFail p.id p.v (p.w + 1), more p])
    ++ [fTail (2 + 2 * (pairs m).length) m])

/-- The one word of a GET command. -/
def getFail (group : Nat) (m : Msg) : Option Fail := firstOf [pairFail group (mword m 2) 2, fTail 3 m]

/-- The last value that a command gives a setting, or the present one. -/
def pairVal (l : List Pair) (id i : Nat) (now : Int) : Int :=
  ((l.reverse.find? fun p => p.id = id && p.i = i).map fun p => p.v.toInt).getD now

/-- The word of the last pair among some settings of an item. -/
def lastPair (l : List Pair) (ids : List Nat) (i : Nat) : Option Nat :=
  (l.reverse.find? fun p => decide (p.id ∈ ids) && p.i = i).map (·.w)

end Sys2Proof.Machine
end

