-- ==== Sys2Proof/Machine/Image.lean ====
section
/-! DEFINITION. Firmware images, the slot directory and the choice of an image (15 R400 to R411). -/
namespace Sys2Proof.Machine
open Sys2Proof

/-! ### Images -/

/-- n bytes of a flash region from an offset; an erased byte reads 0xFF. -/
def bytesAt (l : List Byte) (off n : Nat) : List Byte := (l.drop off).take n ++ List.replicate (n - (l.length - off)) 0xFF

/-- TOTAL of a header. -/
def imgTotal (l : List Byte) : Nat := le32 l 8

/-- Offset, size and entry address of section i, and its reserved word. -/
def imgSect (l : List Byte) (i : Nat) : Nat × Nat × Nat × Nat :=
  let o := 0x80 + 16 * i
  (le32 l o, le32 l (o + 4), le32 l (o + 8), le32 l (o + 12))

/-- What the header carries into the running state (Table 15.5). -/
def imgInfo (l : List Byte) : ImgInfo :=
  { svn := byteAt l 0x0C, seq := wordN (le32 l 0x10), release := wordN (le32 l 0x14), autoconf := bit (byteAt l 0x0D) 0,
    trialWd := if le16 l 0x0E = 0 then 60 else le16 l 0x0E }

/-- Check 0x41, with the largest TOTAL that the slot or the transfer allows. -/
def imgHeaderOk (l : List Byte) (maxTotal : Nat) : Bool :=
  let t := imgTotal l
  let wd := le16 l 0x0E
  le32 l 0 = 0x4E564946 && le16 l 4 = 1 && le16 l 6 = 0x100 && 0x1000 ≤ t && t ≤ 0x800000 && t ≤ maxTotal
    && (byteAt l 0x0D).toNat < 2 && (wd = 0 || (10 ≤ wd && wd ≤ 600)) && (bytesAt l 0x18 8).all (· = 0)
    && (bytesAt l 0xB0 80).all (· = 0)

/-- Check 0x42 (R401). -/
def imgSectsOk (l : List Byte) : Bool :=
  let t := imgTotal l
  let s (i : Nat) := imgSect l i
  let inside (i : Nat) : Bool := (s i).2.1 = 0 || (0x100 ≤ (s i).1 && (s i).1 + (s i).2.1 ≤ t - 96)
  (List.range 3).all (fun i => (s i).1 % 64 = 0 && (s i).2.2.2 = 0 && inside i)
    && apart (s 0).1 (s 0).2.1 (s 1).1 (s 1).2.1 && apart (s 0).1 (s 0).2.1 (s 2).1 (s 2).2.1
    && apart (s 1).1 (s 1).2.1 (s 2).1 (s 2).2.1
    && 16384 ≤ (s 0).2.1 && (s 0).2.1 ≤ 786432 && 4096 ≤ (s 1).2.1 && (s 1).2.1 ≤ 196608

/-- The KH slots that hold the hash of the image's public key. -/
def imgSlots (kh : Vector (Option (BitVec 384)) 4) (l : List Byte) : List (Fin 4) :=
  let h := Config.sha384 (bytesAt l 0x20 96)
  (idx 4).filter fun i => kh[i] = some h

/-- Check 0x45 (R402). -/
def imgSigned (l : List Byte) : Bool :=
  let t := imgTotal l
  Config.ecdsaVerify (bytesAt l 0x20 96) (Config.sha384 (bytesAt l 0 (t - 96))) (bytesAt l (t - 96) 96)

/-- The checks of Table 15.6: the code of the first that fails, 0 for none. -/
def State.imageCheck (s : State) (l : List Byte) (maxTotal : Nat) : Nat :=
  let k := imgSlots s.boot.kh l
  if !imgHeaderOk l maxTotal then 0x41
  else if !imgSectsOk l then 0x42
  else if k = [] then 0x43
  else if k.all fun i => bit s.boot.revoke i.val then 0x44
  else if !imgSigned l then 0x45
  else 0

/-- The slot whose hash the running image's key has. -/
def State.signedBy (s : State) (i : Fin 4) : Bool := decide (i ∈ imgSlots s.boot.kh s.boot.imgBytes)

/-- The status of a failed image check: E_OBJECT or E_AUTH, with the code in INFO. -/
def imageFail (code : Nat) : Fail := { status := if code ≤ 0x42 then 0x30 else 0x31, info := code, ws := [] }

/-! ### The directory (R405) -/

/-- Bytes 0x00 to 0x3B of a directory record (Table 15.8). -/
def DirRec.head (d : DirRec) : List Byte :=
  wordBytes [0x52444953, d.dseq, wordN d.slotSize] ++ [d.stateA, d.stateB, d.active, 0] ++ wordBytes [d.seqA, d.seqB] ++ List.replicate 36 0

/-- A record with its CRC. -/
def DirRec.bytes (d : DirRec) : List Byte := d.head ++ wordBytes [crc32 d.head]

/-- The fields of a record. -/
def dirFields (l : List Byte) : DirRec :=
  { dseq := wordN (le32 l 4), slotSize := le32 l 8, stateA := byteAt l 0xC, stateB := byteAt l 0xD, active := byteAt l 0xE,
    seqA := wordN (le32 l 0x10), seqB := wordN (le32 l 0x14) }

/-- SLOTSIZE is a multiple of 64 KiB from 64 KiB to 8 MiB. -/
def slotSizeOk (n : Nat) : Bool := n % 0x10000 = 0 && 0x10000 ≤ n && n ≤ 0x800000

/-- A copy is valid when its first 64 bytes match Table 15.8 and its CRC is correct. -/
def dirOf (l : List Byte) : Option DirRec :=
  if le32 l 0 = 0x52444953 ∧ slotSizeOk (le32 l 8) ∧ byteAt l 0xF = 0 ∧ (bytesAt l 0x18 36).all (· = 0)
      ∧ wordN (le32 l 0x3C) = crc32 (bytesAt l 0 0x3C) then some (dirFields l) else none

/-- The valid copies. -/
def State.dirCopy (s : State) (i : Fin 2) : Option DirRec := if s.inFlash (0x1000 * i.val) 0x1000 then dirOf s.boot.dir[i] else none

/-- The copy in force: the later DSEQ, copy 0 on a tie. -/
def State.dirIndex (s : State) : Option (Fin 2) :=
  match s.dirCopy 0, s.dirCopy 1 with
  | some a, some b => if 0 < (b.dseq - a.dseq).toInt then some 1 else some 0
  | some _, none => some 0
  | none, some _ => some 1
  | none, none => none

/-- The directory in force, or both slots VALID with no active slot. -/
def State.dir (s : State) : DirRec :=
  ((s.dirIndex.bind s.dirCopy).getD
    { dseq := 0, slotSize := 0x800000, stateA := 1, stateB := 1, active := 0xFF, seqA := 0, seqB := 0 })

/-- Write the directory with DSEQ + 1 to the copy that is not in force; with none in force, to copy 0. None when the region is
missing. -/
def writeDir (d : DirRec) (s : State) : Option State :=
  let i : Fin 2 := match s.dirIndex with | some 0 => 1 | some 1 => 0 | none => 0
  if s.inFlash (0x1000 * i.val) 0x1000 then
    let l := { d with dseq := s.dir.dseq + 1 }.bytes
    some (flashWork true (fun f => Sfdp.write f false (0x1000 * i.val) l) { s with boot.dir := s.boot.dir.set i.val l })
  else none

/-- A write of the directory by the ROM: one to a missing region leaves nothing. -/
def putDir (d : DirRec) (s : State) : State := (writeDir d s).getD s

/-- Where a slot lies. -/
def State.slotOff (s : State) (x : SlotId) : Nat := 0x10000 + (match x with | .a => 0 | .b => s.dir.slotSize)

/-- The state of a slot; one beyond the density is EMPTY. -/
def State.slotState (s : State) (x : SlotId) : Byte :=
  if s.inFlash (s.slotOff x) s.dir.slotSize then (match x with | .a => s.dir.stateA | .b => s.dir.stateB) else 0

/-- A slot is TRYING (R408). -/
def State.trying (s : State) : Bool := s.slotState .a = 3 || s.slotState .b = 3

/-- The bytes of a slot. -/
def State.slotBytes (s : State) (x : SlotId) : List Byte := match x with | .a => s.boot.slotA | .b => s.boot.slotB

/-- Bytes replace those of a slot from its start. -/
def fillSlot (x : SlotId) (l : List Byte) (s : State) : State :=
  match x with
  | .a => { s with boot.slotA := l ++ s.boot.slotA.drop l.length }
  | .b => { s with boot.slotB := l ++ s.boot.slotB.drop l.length }

def DirRec.setState (d : DirRec) (x : SlotId) (v : Byte) : DirRec :=
  match x with | .a => { d with stateA := v } | .b => { d with stateB := v }

/-- A slot is written: its state and the SEQ of its image. -/
def DirRec.written (d : DirRec) (x : SlotId) (v : Byte) (seq : Word) : DirRec :=
  match x with | .a => { d with stateA := v, seqA := seq } | .b => { d with stateB := v, seqB := seq }

def slotCode (x : SlotId) : Byte := match x with | .a => 0 | .b => 1

/-- The code of a slot and the other slot. -/
def otherSlot (x : SlotId) : SlotId := match x with | .a => .b | .b => .a

/-- The slot that a transfer of an image goes to (R379, R409, R410). -/
def State.targetSlot (s : State) : SlotId :=
  match s.boot.running with
  | some (.slot x) => otherSlot x
  | _ => if s.slotState .a = 0 ∨ s.slotState .a = 4 then .a else .b

/-! ### Choosing an image from flash (R406) -/

/-- A slot verifies: the code of the first failed check of what it holds. -/
def State.slotCheck (s : State) (x : SlotId) : Nat := s.imageCheck (s.slotBytes x) s.dir.slotSize

/-- Note a checked image (R411). -/
def noteImage (code : Nat) (s : State) : State :=
  { s with boot.found := true,
           boot.onlyRevoked := decide (code = 0x44) && (s.boot.onlyRevoked || !s.boot.found) }

/-- The ROM copies image bytes into staging, the delay memory of tile 0, two bytes in a word (R403; their order DESIGN CHOICE, log 143). -/
def stage (l : List Byte) (s : State) : State :=
  let ws : List (Nat × Half) := (List.range ((l.length + 1) / 2)).map fun i => (i, BitVec.ofNat 16 (le16 (l ++ [0]) (2 * i)))
  s.modTile 0 fun t => { t with mem := ws.filter fun c => c.2 ≠ 0 }

/-- The staged bytes of an image of a given size. -/
def State.staging (s : State) (n : Nat) : List Byte :=
  ((List.range ((n + 1) / 2)).flatMap fun i =>
    let w := s.tile[0].mem.get i
    [w.truncate 8, (w >>> 8).truncate 8]).take n

/-- The core sections of an image. -/
def imgCores (l : List Byte) : List Byte × List Byte :=
  let s (i : Nat) := imgSect l i
  (bytesAt l (s 0).1 (s 0).2.1, bytesAt l (s 1).1 (s 1).2.1)

/-- The core sections go from staging into Capo-H and Capo-S SRAM; Capo-H SRAM keeps both (R403, R421). -/
def placeCores (p : List Byte × List Byte) (s : State) : State := { s with boot.sramH := p, boot.sramS := p.2 }

/-- The image verified: SVN is loaded into the deriver, the core sections are placed and the ROM is about to hand over (R403). -/
def verified (src : BootSrc) (l : List Byte) (trial : Bool) (s : State) : State :=
  let i := imgInfo l
  let s := placeCores (imgCores (s.staging (imgTotal l))) s
  { s with boot.phase := .verified, boot.running := some src, boot.image := i, boot.imgBytes := l.take (imgTotal l),
           boot.svn := some i.svn, boot.trial := trial, boot.trialWd := if trial then some i.trialWd else none }

/-- x before y: higher SVN, then higher SEQ, then the given tie. -/
def imgBefore (s : State) (tie x y : SlotId) : Bool :=
  let i := imgInfo (s.slotBytes x)
  let j := imgInfo (s.slotBytes y)
  if i.svn ≠ j.svn then decide (j.svn.toNat < i.svn.toNat)
  else if i.seq ≠ j.seq then decide (j.seq.toNat < i.seq.toNat)
  else decide (x = tie)

/-- Slots A and B, or those of them that are in a state. -/
def State.slotsIn (s : State) (v : Byte) : List SlotId := [SlotId.a, .b].filter fun x => s.slotState x = v

/-- Order two slots by SVN, SEQ and the tie. -/
def orderSlots (s : State) (tie : SlotId) : List SlotId → List SlotId
  | [x, y] => if imgBefore s tie x y then [x, y] else [y, x]
  | l => l

/-- The slot ACTIVE names, where it names one. -/
def DirRec.activeSlot (d : DirRec) : Option SlotId := if d.active = 0 then some .a else if d.active = 1 then some .b else none

/-- A TRYING slot after a reset is FAILED. -/
def failTrying (x : SlotId) (s : State) : State :=
  if s.slotState x = 3 then { putDir (s.dir.setState x 4) s with boot.trialFailed := true } else s

/-- What the ROM reads of a slot: the header, and the body when the header has passed (R403). -/
def State.stageSlot (s : State) (x : SlotId) : State :=
  let l := s.slotBytes x
  let c := s.slotCheck x
  let n := if c = 0 ∨ c = 0x45 then imgTotal l else 0x100
  flashWork true (fun f => Sfdp.read f true (s.slotOff x) n) (stage (bytesAt l 0 n) s)

/-- Trials in order. -/
def tryTrials : List SlotId → State → State
  | [], s => s
  | x :: l, s =>
    let c := s.slotCheck x
    let t := noteImage c (s.stageSlot x)
    if c = 0 then verified (.slot x) (s.slotBytes x) true (putDir (s.dir.setState x 3) t)
    else tryTrials l (putDir (s.dir.setState x 4) t)

/-- Valid slots in order. -/
def tryValid : List SlotId → State → State
  | [], s => s
  | x :: l, s =>
    let c := s.slotCheck x
    let t := noteImage c (s.stageSlot x)
    if c = 0 then verified (.slot x) (s.slotBytes x) false t else tryValid l t

/-- The ROM reads the SFDP header and the two directory copies (R404, R432). -/
def readFlash (s : State) : State := flashWork false (fun f => Sfdp.start f ++ Sfdp.read f true 0 64 ++ Sfdp.read f true 0x1000 64) s

/-- Source P (R406): the phase is verified afterwards when a slot boots. -/
def bootFlash (s : State) : State :=
  let s := readFlash s
  let s := failTrying .b (failTrying .a s)
  let s := tryTrials (orderSlots s (s.dir.activeSlot.getD .a) (s.slotsIn 2)) s
  if s.boot.phase = .verified then s
  else
    let v := s.slotsIn 1
    let v := if s.dirIndex.isNone then orderSlots s .a v
      else match s.dir.activeSlot with
        | some x => (v.filter fun y => y = x) ++ v.filter fun y => y ≠ x
        | none => v
    tryValid v s

end Sys2Proof.Machine
end

