-- ==== Sys2Proof/Machine/Reset.lean ====
section
/-! DEFINITION. What a reset of the device, a reset of Capo-H alone and deep sleep leave, and the peripheral port when its owner
stops (13 R368, 15 R407, R421, R422, 16 R431, 18 R453, R455). -/
namespace Sys2Proof.Machine
open Sys2Proof

/-- RESET_N, a supply below its limit, SYS_RESET and the trial watchdog: only fuses, flash, the record of R421 and the cause are
left; the queue of commands and the free numbers are not the device's. -/
def deviceReset (cause : Nat) (s : State) : State :=
  let r := State.reset
  let b := s.boot
  { r with
    free := s.free, pending := s.pending, sup.resetCause := cause,
    boot.kh := b.kh, boot.revoke := b.revoke, boot.serial := b.serial, boot.bootOrder := b.bootOrder,
    boot.debugDisable := b.debugDisable, boot.khLock := b.khLock, boot.orderLock := b.orderLock, boot.testLock := b.testLock,
    boot.warm := b.warm, boot.dir := b.dir, boot.slotA := b.slotA, boot.slotB := b.slotB, boot.sealed := b.sealed }

/-- Causes of Table 14.13. -/
def causePowerOn : Nat := 0
def causeResetN : Nat := 1
def causeWatchdog : Nat := 2
def causeSysReset : Nat := 3
def causeWake : Nat := 4
def causeTrial : Nat := 5

/-- The word in progress completes, the select is released, every queued entry is discarded (R431). -/
def Peri.stop (p : Peri) : Peri :=
  { p with queue := [], paused := none, held := none, hostRun := false }

/-- A change whose command is not answered any more. -/
def Change.unanswered : Change → Change
  | .swap mask _ => .swap mask none
  | c => c

/-- A reset of Capo-H (R368, R439): inbound mailboxes cleared with ABORTED, the firmware's queues, transfers and unsent responses
lost; everything else goes on. -/
def capoHReset (s : State) : State :=
  let s := intset 5 s
  { s with host.mbi := vmap (fun (m : Mbi) => { m with w := .replicate 16 0, len := 0, go := false, aborted := true, placed := none }) s.host.mbi,
           fw.q := .replicate 4 [], fw.lostHeld := false, fw.handle := .replicate 8 none, fw.bulkOut := [], fw.mirrorWait := [],
           fw.kaLapsed := false, fw.reading := false, fw.sleep := none, fw.line := [],
           fw.sched := s.fw.sched.map fun e => { e with change := e.change.unanswered }, sup.restarting := true, sup.capoHRun := false, peri := s.peri.stop }

/-- The digest of the two core sections as placed (R421). -/
def imgDigest (p : List Byte × List Byte) : BitVec 384 := Config.sha384 (p.1 ++ p.2)

/-- The record matches the placed sections. -/
def State.warmMatch (s : State) : Bool :=
  match s.boot.warm with | some r => decide (r.digest = imgDigest s.boot.sramH) | none => false

/-- Deep sleep (R422): only the record, Capo-H SRAM with the image, fuses, flash and the queues of the host's commands are left;
the host domain closes and every engine is IDLE. -/
def enterSleep (mask : BitVec 2) (s : State) : State :=
  let t := deviceReset s.sup.resetCause s
  { t with boot.phase := .sleeping, boot.wakeMask := mask, boot.straps := s.boot.straps, boot.image := s.boot.image,
           boot.imgBytes := s.boot.imgBytes, boot.sramH := s.boot.sramH, boot.running := s.boot.running, boot.flash := s.boot.flash, boot.jtag := s.boot.jtag,
           sup.stat := s.sup.stat }

end Sys2Proof.Machine
end

