-- ==== Sys2Proof/Machine/FwSys.lean ====
section
/-! DEFINITION. SYS commands and bulk transfers (14 R379, R381, R382, Table 14.5; 15 R399). -/
namespace Sys2Proof.Machine
open Sys2Proof

/-! ### SYS_INFO, SYS_STATUS, SYS_QUIET, SYS_KEEPALIVE -/

/-- Position and SEGID, or 0xFFFF. -/
def State.posWord (s : State) : Word :=
  match s.link.pos with | some p => wordN (p.val + s.link.segid.toNat <<< 8) | none => 0xFFFF

/-- Release 1.3 of the firmware; the ROM reports 0 (R372, R399). -/
def State.release (s : State) : Word := if s.boot.phase = .firmware then 0x00010003 else 0

def sysInfoCmd : Cmd :=
  { code := 0x0101, early := true, check := fun _ m => fTail 2 m,
    act := fun m _ s => ok m [0x7480, 0xA1, s.release, s.boot.serial.truncate 32, (s.boot.serial >>> 32).truncate 32,
      wordN (strapBits s.boot.straps), s.posWord] s }

/-- A mean of readings in 0.1 °C; 0 before the first. -/
def meanTenths (l : List Int) : Int :=
  if l = [] then 0 else roundHalfUp ((l.foldl (· + ·) 0 : Int) / (l.length : Rat))

def sysStatusCmd : Cmd :=
  { code := 0x0102, safety := true, early := true, check := fun _ m => fTail 2 m,
    act := fun m _ s => ok m [wordN (boolN s.isQuiet), s.sup.quiet.zeroExtend 32, wordI (meanTenths s.pcd.dieT),
      wordI (meanTenths s.pcd.pcdT), s.statCode.zeroExtend 32] s }

/-- SYS_QUIET: the release is refused while another cause holds the device quiet (R381, Table 17.4). -/
def sysQuietCmd : Cmd :=
  { code := 0x0103, safety := true, check := fun _ m => firstOf [fCode 2 0 32 1 m, fTail 3 m],
    act := fun m _ s =>
      if mword m 2 = 1 then ok m [] (setQuiet 2 s)
      else orElse m (need (s.sup.quiet &&& ~~~2#7 = 0) (.of eState)) (fun s => ok m [] (clearQuiet 2 s)) s }

def sysKeepaliveCmd : Cmd :=
  { code := 0x0104, safety := true, early := true, check := fun _ m => fTail 2 m, act := fun m _ s => ok m [] s }

/-! ### Transfers (R379) -/

def kindOf (k : Nat) : XferKind :=
  if k = 0 then .program else if k = 1 then .graph else if k = 2 then .batch else if k = 3 then .cred else .image

/-- Bytes of the staging store in use. -/
def State.staged (s : State) : Nat :=
  (s.fw.handle.toList.map fun h => match h with | some x => if x.kind = .image then 0 else x.size | none => 0).foldl (· + ·) 0

/-- The lowest free handle. -/
def State.freeHandle (s : State) : Option (Fin 8) := (idx 8).find? fun i => s.fw.handle[i].isNone

def setHandle (i : Fin 8) (h : Option Handle) (s : State) : State := { s with fw.handle := s.fw.handle.set i.val h }

/-- An image transfer is open: filling, or complete and not dropped (log 44). -/
def State.imageOpen (s : State) : Bool :=
  s.fw.handle.toList.any fun h => match h with
    | some x => decide (x.kind = .image ∧ (x.status = none ∨ x.status = some 0))
    | none => false

/-- A graph object: its header, its counts, its entries within the object. -/
def graphOk (l : List Byte) : Bool :=
  let m := le32 l 4
  let c := le32 l 8
  12 ≤ l.length && le32 l 0 = 0x48505247 && 1 ≤ m && m ≤ 64 && c ≤ 1024 && 12 + 16 * m + 12 * c ≤ l.length
    && (List.range m).all fun i =>
      let o := 12 + 16 * i
      le32 l o + le32 l (o + 4) ≤ l.length && le32 l (o + 12) = 0

/-- The check of a complete object: its status and INFO; a code that the manual does not give is free. -/
def objectStatus (h : Handle) (s : State) : Nat × Nat × State :=
  match h.kind with
  | .program => match checkObject h.bytes s.clk.mrate.budget with
    | .ok _ => (0, 0, s)
    | .bad c _ => (0x30, c, s)
  | .graph =>
    if graphOk h.bytes then (0, 0, s)
    else let (n, t) := s.fresh; (0x30, (Config.freeWord n).toNat % 65536, t)
  | .batch => (0, 0, s)
  | .cred =>
    if (Config.credOf h.bytes).isSome then (0, 0, s)
    else let (n, t) := s.fresh; (0x30, (Config.freeWord n).toNat % 65536, t)
  | .image =>
    let c := s.imageCheck h.bytes (min s.dir.slotSize h.size)
    if c = 0 then (0, 0, s) else ((imageFail c).status, c, s)

/-- XFER_DONE: handle, status and INFO. -/
def xferDone (i : Fin 8) (status info : Nat) (s : State) : State :=
  raise 0x8107 [wordN (i.val + 1), wordN status, wordN info]
    (match s.fw.handle[i] with
      | some h => setHandle i (some { h with status := some (BitVec.ofNat 16 status) }) s
      | none => s)

/-- A pushed image at the ROM: one that passes is booted at once; the handle closes (R399, R412). -/
def romImage (i : Fin 8) (h : Handle) (s : State) : State :=
  let c := s.imageCheck h.bytes h.size
  let f := imageFail c
  let s := stage h.bytes s
  let s := setHandle i none (xferDone i (if c = 0 then 0 else f.status) c s)
  let s := noteImage c s
  if c = 0 then verified (if s.host.ready then .host else .link) h.bytes false s else s

/-- The last byte of a transfer has arrived. -/
def finishXfer (i : Fin 8) (s : State) : State :=
  match s.fw.handle[i] with
  | none => s
  | some h =>
    if h.kind = .image ∧ s.boot.phase = .rom then romImage i h s
    else
      let (st, inf, s) := objectStatus h s
      xferDone i st inf s

/-- SYS_XFER_OPEN; the ROM takes images only (R399). -/
def sysXferOpenCmd : Cmd :=
  { code := 0x0105,
    check := fun _ m => firstOf [fCode 2 0 32 4 m,
      if mword m 2 = 4 then fRange 3 0 32 0 0x800000 m else none, fTail 4 m],
    act := fun m _ s =>
      let k := kindOf (mword m 2).toNat
      let n := (mword m 3).toNat
      let f := firstOf [need (s.boot.phase = .firmware || k = .image) (.of eState),
        need (!(k = .image && s.imageOpen)) (.of eBusy),
        need (s.freeHandle.isSome && (k = .image || s.staged + n ≤ 327680)) (.of eResource)]
      orElse m f (fun s =>
        let i := s.freeHandle.getD 0
        let s := setHandle i (some { kind := k, size := n, bytes := [], status := none }) s
        let s := ok m [wordN (i.val + 1)] { s with boot.responded := s.boot.responded || s.boot.phase = .rom }
        if n = 0 then finishXfer i s else s) s }

def sysXferDropCmd : Cmd :=
  { code := 0x0106, check := fun _ m => firstOf [fHandle 2 0 32 m, fTail 3 m],
    act := fun m _ s =>
      let i := fin 8 ((mword m 2).toNat - 1)
      orElse m (need s.fw.handle[i].isSome (.of eState)) (fun s => ok m [] (setHandle i none s)) s }

/-- The transfer that a fragment belongs to: the lowest handle whose transfer is not complete (the manual names none). -/
def State.inbound (s : State) : Option (Fin 8) :=
  (idx 8).find? fun i => match s.fw.handle[i] with | some h => h.status.isNone | none => false

/-- A transfer that is closed before its end keeps its handle until SYS_XFER_DROP; the ROM, which takes none, frees it (log 44). -/
def closeXfer (i : Fin 8) (s : State) : State := if s.boot.phase = .rom then setHandle i none s else s

/-- The bytes of a fragment go into the slot at an offset (R379). -/
def streamSlot (x : SlotId) (off : Nat) (l : List Byte) (s : State) : State :=
  if s.inFlash (s.slotOff x) s.dir.slotSize then flashWork false (fun f => Sfdp.write f true (s.slotOff x + off) l) s else s

/-- A fragment on MBI1 (R379): out of order it closes the transfer with E_SEQ; the handle stays until SYS_XFER_DROP. -/
def bulk (m : Msg) (s : State) : State :=
  match s.inbound with
  | none => s
  | some i =>
    match s.fw.handle[i] with
    | none => s
    | some h =>
      if (mword m 1).toNat ≠ h.bytes.length then closeXfer i (xferDone i 0x32 0 s)
      else
        let l := h.bytes ++ (wordBytes ((mwords m).drop 2)).take (h.size - h.bytes.length)
        let s := setHandle i (some { h with bytes := l }) s
        let s := if h.kind = .image ∧ s.boot.phase = .firmware then streamSlot s.targetSlot h.bytes.length (l.drop h.bytes.length) (fillSlot s.targetSlot l s) else s
        if l.length = h.size then finishXfer i s else s

/-! ### SYS_SAVE -/

def sysSaveCmd : Cmd :=
  { code := 0x0107, check := fun _ m => fTail 2 m,
    act := fun m _ s => match sealWrite (capture s.boot.cred s) s with
      | some t => ok m [s.nextCseq] t
      | none => deny m eState s }

/-! ### SYS_RESET -/

/-- SYS_RESET acts as a pulse on RESET_N; it has no response. -/
def sysResetCmd : Cmd :=
  { code := 0x0109, check := fun _ m => firstOf [need (mword m 2 = 0xD1E5) (eRange 2 0 0), fTail 3 m],
    act := fun _ _ s => deviceReset causeSysReset s }

/-! ### SYS_CNTCLR (R382, Table 14.14) -/

/-- The range of INDEX of a class and whether it uses SUB. -/
def cntClass (c : Nat) : Option (Nat × Nat × Bool) :=
  if 1 ≤ c ∧ c ≤ 4 then some (0, 11, false)
  else if c = 5 ∨ c = 6 then some (8, 11, true)
  else if c = 7 then some (0, 255, false)
  else if c = 8 ∨ c = 0x10 then some (0, 15, false)
  else if c = 9 ∨ c = 0xA then some (0, 19, false)
  else if c = 0xB ∨ c = 0xC then some (0, 3, false)
  else if 0xD ≤ c ∧ c ≤ 0xF then some (0, 0, false)
  else none

/-- The value of a counter. -/
def State.counter (s : State) (c i sub : Nat) : Word :=
  let p := s.port[fin 12 i]
  let a := p.aes[fin 2 sub]
  match c with
  | 0x01 => p.rxSlip
  | 0x02 => p.txSlip
  | 0x03 => p.glitch
  | 0x04 => p.lostCnt
  | 0x05 => a.parErr
  | 0x06 => a.crcErr
  | 0x07 => s.mtx.cols[fin 256 i].sat
  | 0x08 => s.pcd.ch[fin 16 i].clip
  | 0x09 => s.eng[fin 20 i].pCorr
  | 0x0A => s.eng[fin 20 i].dCorr
  | 0x0B => s.tile[fin 4 i].corr
  | 0x0C => if i = 0 then s.link.errEast else if i = 1 then s.link.errWest else if i = 2 then s.link.errSpur0 else s.link.errSpur1
  | 0x0D => s.fw.loss
  | 0x0E => s.fw.drop0
  | 0x0F => s.fw.drop3
  | _ => s.grp[fin 16 i].evLost

/-- A counter at zero (R309). -/
def clearCounter (c i sub : Nat) (s : State) : State :=
  let p := fin 12 i
  match c with
  | 0x01 => s.modPort p fun x => { x with rxSlip := 0 }
  | 0x02 => s.modPort p fun x => { x with txSlip := 0 }
  | 0x03 => s.modPort p fun x => { x with glitch := 0 }
  | 0x04 => s.modPort p fun x => { x with lostCnt := 0 }
  | 0x05 => modAes p (fin 2 sub) (fun a => { a with parErr := 0 }) s
  | 0x06 => modAes p (fin 2 sub) (fun a => { a with crcErr := 0 }) s
  | 0x07 => s.modCol (fin 256 i) fun x => { x with sat := 0 }
  | 0x08 => s.modCh (fin 16 i) fun x => { x with clip := 0 }
  | 0x09 => s.modEng (fin 20 i) fun x => { x with pCorr := 0 }
  | 0x0A => s.modEng (fin 20 i) fun x => { x with dCorr := 0 }
  | 0x0B => s.modTile (fin 4 i) fun x => { x with corr := 0 }
  | 0x0C =>
    if i = 0 then { s with link.errEast := 0 } else if i = 1 then { s with link.errWest := 0 }
    else if i = 2 then { s with link.errSpur0 := 0 } else { s with link.errSpur1 := 0 }
  | 0x0D => { s with fw.loss := 0 }
  | 0x0E => { s with fw.drop0 := 0 }
  | 0x0F => { s with fw.drop3 := 0 }
  | _ => s.modGrp (fin 16 i) fun x => { x with evLost := 0 }

/-- Every counter of a class. -/
def cntAll (c : Nat) : List (Nat × Nat) :=
  match cntClass c with
  | none => []
  | some (lo, hi, sub) =>
    (List.range (hi + 1 - lo)).flatMap fun k => if sub then [(lo + k, 0), (lo + k, 1)] else [(lo + k, 0)]

/-- The checks of an identifier, by bits upward. -/
def cntFail (w : Word) : Option Fail :=
  let i := fld w 8 8
  let sub := fld w 16 2
  match cntClass (fld w 0 8) with
  | none => some (eReserved 2 0 0)
  | some (lo, hi, two) =>
    firstOf [need (sub = 3 || (lo ≤ i && i ≤ hi)) (eRange 2 8 0), need (sub = 3 || sub = 0 || (two && sub = 1)) (eReserved 2 16 0),
      need (fld w 18 14 = 0) (eReserved 2 18 0)]

/-- SYS_CNTCLR: the identifier in W2, the value before the clear or the number of counters in W3. -/
def sysCntclrCmd : Cmd :=
  { code := 0x010A, check := fun _ m => firstOf [cntFail (mword m 2), fTail 3 m],
    act := fun m _ s =>
      let w := mword m 2
      let c := fld w 0 8
      if fld w 16 2 = 3 then
        let l := cntAll c
        ok m [w, wordN l.length] (l.foldl (fun s x => clearCounter c x.1 x.2 s) s)
      else ok m [w, s.counter c (fld w 8 8) (fld w 16 2)] (clearCounter c (fld w 8 8) (fld w 16 2) s) }

/-! ### The rows -/

def execSysInfo (m : Msg) (s : State) : Out := row sysInfoCmd "SYS_INFO" m s
def execSysStatus (m : Msg) (s : State) : Out := row sysStatusCmd "SYS_STATUS" m s
def execSysQuiet (m : Msg) (s : State) : Out := row sysQuietCmd "SYS_QUIET" m s
def execSysKeepalive (m : Msg) (s : State) : Out := row sysKeepaliveCmd "SYS_KEEPALIVE" m s
def execSysXferOpen (m : Msg) (s : State) : Out := row sysXferOpenCmd "SYS_XFER_OPEN" m s
def execSysXferDrop (m : Msg) (s : State) : Out := row sysXferDropCmd "SYS_XFER_DROP" m s
def execSysSave (m : Msg) (s : State) : Out := row sysSaveCmd "SYS_SAVE" m s
def execSysReset (m : Msg) (s : State) : Out := row sysResetCmd "SYS_RESET" m s
def execSysCntclr (m : Msg) (s : State) : Out := row sysCntclrCmd "SYS_CNTCLR" m s

/-- BULK_FRAGMENT: a message with CMD 0x0001 on MBI1. -/
def execBulkFragment (m : Msg) (s : State) : Out :=
  ifWf (m.box = 1 && wfCmd 1 m) "BULK_FRAGMENT" <| done <| arrive (bulk m) m s

end Sys2Proof.Machine
end

