-- ==== Sys2Proof/Machine/FwClk.lean ====
section
/-! DEFINITION. CLK commands (14 Table 14.5, R380; 11 R288, R290 to R297, R311). -/
namespace Sys2Proof.Machine
open Sys2Proof

/-! ### Values of settings -/

def srcNibble : RefSrc → Nat
  | .refclk => 1 | .ridge => 2 | .sap0 => 3 | .aes0 => 4 | .spur => 5

def refWord : List RefSrc → Nat
  | [] => 0
  | r :: l => srcNibble r + 16 * refWord l

def outSrcCode : OutSrc → Nat
  | .off => 0 | .asn n => 1 + n.val | .ref => 5

def formatCode : OutFormat → Nat
  | .lvcmos18 => 0 | .lvcmos33 => 1 | .lvds => 2

/-- The present value of a clock setting. -/
def State.clkVal (s : State) (id i : Nat) : Int :=
  let a := s.clk.asn[fin 4 i]
  let o := s.clk.out[fin 8 i]
  match id with
  | 0x20 => refWord s.clk.refOrder
  | 0x21 => s.clk.mrate.code
  | 0x22 => s.clk.lockWin[fin 2 i]
  | 0x23 => s.clk.lockN[fin 2 i]
  | 0x24 => s.clk.holdLim
  | 0x25 => boolN a.core
  | 0x26 => a.nint
  | 0x27 => a.nfrac
  | 0x28 => a.p
  | 0x29 => outSrcCode o.src
  | 0x2A => o.d
  | 0x2B => formatCode o.format
  | 0x2C => boolN o.arm
  | _ => boolN s.clk.syncByFrame

/-! ### Relations, on the values after the whole command -/

/-- REFORDER names 1 to 4 distinct sources (Table 11.6, R288). -/
def refCount (l : List RefSrc) : Bool := 1 ≤ l.length && l.length ≤ 4 && decide l.Nodup

/-- The pairs of a command as the changes that they make. -/
def clkPairs (l : List Pair) : List (Nat × Nat × Int) := l.map fun p => (p.id, p.i, p.v.toInt)

/-- The value's word of the last pair that p names. -/
def lastTie (l : List Pair) (p : Nat → Nat → Bool) : Nat := ((l.reverse.find? fun x => p x.id x.i).map (·.w)).getD 0 + 1

/-- What a pair must meet beyond its field: LVDS has an even index, REFORDER names 1 to 4 distinct sources, FRAME needs AT (Table 14.4). -/
def clkPairFail (m : Msg) (p : Pair) : Option Fail :=
  if p.id = 0x2B then need (!(p.v = 2 && p.i % 2 = 1)) (eReserved (p.w + 1) 0 0)
  else if p.id = 0x20 then need (refCount (refList 8 p.v.toNat)) (eRange (p.w + 1) 0 0)
  else if p.id = 0x2D then need (!(p.v = 1 && !isAt m)) (eRange (p.w + 1) 0 0)
  else none

/-- The relations of a CLK_SET, on the values after the whole command. -/
def State.clkRelations (s : State) (m : Msg) : List (Option Fail) :=
  let l := pairs m
  let t := applyClks (clkPairs l) s
  (idx 4).map (fun n => need (!(l.any fun p => tiesAs n p.id p.i) || !t.vcoBad n) (eRange (lastTie l (tiesAs n)) 0 0))
  ++ (idx 8).map (fun n => need (!(l.any fun p => t.tiesOut n p.id p.i) || !t.outBad n) (eRange (lastTie l (t.tiesOut n)) 0 0))

/-- The rate of M of a segment member changes at a frame only, and by its manager's schedule (R331). -/
def State.rateFrame (s : State) (frame : Option Word) : Bool :=
  s.standalone || s.link.pos.isNone || (frame.isSome && (s.link.active || s.link.tunnelled))

/-- The rate of M that a command gives last. -/
def rateIn (m : Msg) : Option MRate := ((pairs m).reverse.find? fun p => p.id = 0x21).map fun p => .ofCode p.v.toNat

/-- What the present state refuses (R288, R297, R311, R331). -/
def State.clkRefuses (s : State) (frame : Option Word) (p : Pair) : Option Fail :=
  if p.id = 0x2D ∧ p.v = 1 then need (!s.standalone && s.link.joined) (.of eNotMember)
  else need (s.clkAllows p.id p.i p.v.toInt && (p.id ≠ 0x21 || s.rateFrame frame)) (.of eState)

/-- A setting that does not change at its command: the rate of M, and a sync edge at a frame. -/
def Pair.later (p : Pair) : Bool := p.id = 0x21 || (p.id = 0x2D && p.v = 1)

/-- One such pair. -/
def clkPair (frame : Option Word) (s : State) (p : Pair) : State :=
  if p.id = 0x21 then schedule (.rate (.ofCode p.v.toNat)) frame s
  else { s with clk.syncByFrame := true, clk.syncFrame := frame.map fun f => (f, 0) }

/-- The pairs of a command take effect, or are scheduled (Table 11.6). -/
def clkApply (frame : Option Word) (l : List Pair) (s : State) : State :=
  let now := clkPairs (l.filter fun p => !p.later)
  let s := if frame.isSome then (if now = [] then s else schedule (.clkSet now) frame s) else applyClks now s
  (l.filter Pair.later).foldl (clkPair frame) s

def hasPair (id : Nat) (m : Msg) : Bool := (pairs m).any fun p => p.id = id

/-- CLK_SET: a scheduled one is answered with its frame (R376). -/
def clkSetCmd : Cmd :=
  { code := 0x0201, timed := true, len := pairsLen,
    wide := rateIn,
    kind := fun m => if hasPair 0x21 m then 5 else if hasPair 0x2D m then 6 else 0,
    sends := fun s m => firstOf (((pairs m).filter fun p => p.id = 0x21).map (s.clkRefuses (frameOf m))),
    check := fun s m => firstOf (setFail 2 (clkPairFail m) m :: s.clkRelations m),
    act := fun m f s => orElse m (firstOf ((pairs m).map (s.clkRefuses f))) (fun s => ok m f.toList (clkApply f (pairs m) s)) s }

def clkGetCmd : Cmd :=
  { code := 0x0202, check := fun _ m => getFail 2 m,
    act := fun m _ s => ok m [wordI (s.clkVal (mfld 2 0 8 m) (mfld 2 8 8 m))] s }

/-! ### Outputs and synthesizers -/

/-- CLK_OUTSTART: every chain must be locked; in the quiet state the outputs stay gated (R295, R296). -/
def clkOutstartCmd : Cmd :=
  { code := 0x0203, check := fun _ m => firstOf [fMask 2 8 m, fTail 3 m],
    act := fun m _ s =>
      let l := bitsOf 8 (mword m 2)
      let f := need (l.all fun n => s.chainOk s.clk.out[n] && !s.pairedOdd n) (.of eState)
      orElse m f (fun s =>
        let p (n : Fin 8) : Bool := l.contains n && !s.clk.out[n].running
        let s' : State := { s with clk.out := vof fun n => if l.contains n then { s.clk.out[n] with started := true } else s.clk.out[n] }
        ok m [] (if s.isQuiet then s' else runOuts p s')) s }

def clkOutstopCmd : Cmd :=
  { code := 0x0204, check := fun _ m => firstOf [fMask 2 8 m, fTail 3 m],
    act := fun m _ s =>
      ok m [] ((bitsOf 8 (mword m 2)).foldl
        (fun s n => s.modOut n fun (o : ClkOut) => { o.gate (s.srcRate o) with started := false }) s) }

/-- The two masks of a command that enables and disables: none beyond the items, not both empty, no item in both. -/
def twoMasks (n : Nat) (m : Msg) : Option Fail :=
  firstOf [fPairMask 2 n m, need (mword m 2 ≠ 0 || mword m 3 ≠ 0) (eRange 2 0 0), fPairMask 3 n m,
    need (mword m 2 &&& mword m 3 = 0) (eRange 3 0 0)]

def enableAs (n : Fin 4) (s : State) : State :=
  if s.clk.asn[n].enabled then s else s.modAs n fun a => { a with enabled := true, lock := false }

/-- A disabled synthesizer gates the outputs it feeds (R443). -/
def disableAs (n : Fin 4) (s : State) : State :=
  gateOuts (fun o => o.usesAs n) (s.modAs n fun a => { a with enabled := false, lock := false })

def clkAsCmd : Cmd :=
  { code := 0x0205, check := fun _ m => firstOf [twoMasks 4 m, fTail 4 m],
    act := fun m _ s =>
      ok m [] ((bitsOf 4 (mword m 3)).foldl (fun s n => disableAs n s)
        ((bitsOf 4 (mword m 2)).foldl (fun s n => enableAs n s) s)) }

/-- CLK_STATUS; the word of source and lock bits is laid out as CLKSTAT. -/
def clkStatusCmd : Cmd :=
  { code := 0x0206, check := fun _ m => fTail 2 m,
    act := fun m _ s => ok m [s.clkstat, wordN (s.holdMs), wordI s.clk.lastE,
      wordN (boolN s.clk.lastRealign)] s }

/-! ### The rows -/

def execClkSet (m : Msg) (s : State) : Out := row clkSetCmd "CLK_SET" m s
def execClkGet (m : Msg) (s : State) : Out := row clkGetCmd "CLK_GET" m s
def execClkOutstart (m : Msg) (s : State) : Out := row clkOutstartCmd "CLK_OUTSTART" m s
def execClkOutstop (m : Msg) (s : State) : Out := row clkOutstopCmd "CLK_OUTSTOP" m s
def execClkAs (m : Msg) (s : State) : Out := row clkAsCmd "CLK_AS" m s
def execClkStatus (m : Msg) (s : State) : Out := row clkStatusCmd "CLK_STATUS" m s

end Sys2Proof.Machine
end

