-- ==== Sys2Proof/Machine/Monitor.lean ====
section
/-! DEFINITION. The audition monitors: exact measures, criteria and reported levels (06 R162, 14 R485). -/
namespace Sys2Proof.Machine
open Sys2Proof

/-! ### Exact levels -/

/-- (a / b)^e > 10^L, exactly. -/
def ratioAbove (a b e : Nat) (l : Int) : Bool :=
  if 0 ≤ l then decide (b ^ e * 10 ^ l.toNat < a ^ e) else decide (b ^ e < a ^ e * 10 ^ l.natAbs)

/-- The greatest m below base + 2^k with 10^(2m−1) ≤ (a/b)^(2e), from base up: the level in 0.01 dB nearest to e·log10(a/b). -/
def levelSearch (a b e : Nat) : Nat → Int → Int
  | 0, m => m
  | k + 1, m =>
    let c := m + 2 ^ k
    levelSearch a b e k (if ratioAbove a b (2 * e) (2 * c - 1) then c else m)

/-- A level in 0.01 dB; none for a = 0. -/
def levelCdB (a b e : Nat) : Option Int := if a = 0 then none else some (levelSearch a b e 16 (-32768))

/-- A level word of a report (R485). -/
def levelWord (x : Option Int) : Word := match x with | some l => wordI l | none => 0x80000000

/-- The value of 2^31 and 2^62. -/
def fullScale : Nat := 2147483648
def fullScale2 : Nat := 4611686018427387904

/-- A peak amplitude lies above a limit in 0.01 dB. -/
def peakAbove (a : Nat) (l : Option Int) : Bool := match l with | some l => ratioAbove a fullScale 2000 l | none => false

/-! ### Measures of one tick -/

/-- The measures of a tick with the candidate's value y and the target's value yt; n is the window in ticks. A window that is running when
the verdict becomes PASS runs on and is evaluated at its end (log 133). -/
def Measure.step (n : Nat) (y : Word) (yt : Option Word) (m : Measure) : Measure :=
  let a := y.toInt.natAbs
  let sq := m.sq + a * a
  let sum := m.sum + y.toInt
  let t := m.ticks + 1
  let m := { m with peak := max m.peak a, sat := m.sat + boolN (y = 0x7FFFFFFF || y = 0x80000000),
                    null := match yt with | some z => some (max (m.null.getD 0) (y.toInt - z.toInt).natAbs) | none => m.null }
  if t < n then { m with sq := sq, sum := sum, ticks := t }
  else
    let grew := match m.lastSq with
      | some p => if n * fullScale2 ≤ 2 * p * 1000000000 then some (sq, p) else none
      | none => none
    let bigger (x : Nat × Nat) : Nat × Nat := match m.growth with
      | some g => if g.1 * x.2 < x.1 * g.2 then x else g
      | none => x
    { m with sq := 0, sum := 0, ticks := 0, lastSq := some sq, maxSq := some (max (m.maxSq.getD 0) sq),
             maxDc := some (max (m.maxDc.getD 0) sum.natAbs),
             growth := match grew with | some x => some (bigger x) | none => m.growth }

/-- The measures of the tick: a window has just ended. -/
def Measure.atEnd (m : Measure) : Bool := m.ticks = 0 && m.lastSq.isSome

/-- The reported level of a measure: 1 PEAK, 2 RMS, 3 GROWTH, 4 DC, 6 NULL; SAT is a count. -/
def Measure.level (n : Nat) (m : Measure) (k : Nat) : Option Int :=
  if k = 1 then levelCdB m.peak fullScale 2000
  else if k = 2 then m.maxSq.bind fun q => levelCdB (2 * q) (n * fullScale2) 1000
  else if k = 3 then m.growth.bind fun g => levelCdB g.1 g.2 1000
  else if k = 4 then m.maxDc.bind fun d => levelCdB d (n * fullScale) 2000
  else m.null.bind fun d => levelCdB d fullScale 2000

/-- The first criterion that fails in a tick, in the order of Table 06.3; old are the measures before the tick's window end. -/
def Measure.fails (c : Criteria) (n : Nat) (old m : Measure) : Option Nat :=
  let win := m.atEnd && old.ticks + 1 = n
  let above (a b e : Nat) (l : Option Int) : Bool := match l with | some l => ratioAbove a b e l | none => false
  if peakAbove m.peak c.peak then some 1
  else if win && above (2 * m.lastSq.getD 0) (n * fullScale2) 1000 c.rms then some 2
  else if win && (match old.lastSq with
      | some p => decide (n * fullScale2 ≤ 2 * p * 1000000000) && above (m.lastSq.getD 0) p 1000 c.growth
      | none => false) then some 3
  else if win && above (m.maxDc.getD 0) (n * fullScale) 2000 c.dc then some 4
  else if (match c.sat with | some l => decide (l < m.sat) | none => false) then some 5
  else match c.null with
    | none => none
    | some none => if m.null.getD 0 ≠ 0 then some 6 else none
    | some (some l) => if peakAbove (m.null.getD 0) (some l) then some 6 else none

/-- The first measure that fails, with its lowest channel. -/
def firstFail (l : List (Option Nat)) : Option (Nat × Nat) :=
  (List.range 7).findSome? fun k => (l.findIdx? fun x => x = some k).map fun c => (k, c)

/-- The word that reports a measure: a level in 0.01 dB, or a count for SAT. -/
def Measure.report (n : Nat) (m : Measure) (k : Nat) : Word :=
  if k = 5 then wordN m.sat else levelWord (m.level n k)

/-! ### Verdicts -/

/-- ENG_VERDICT of a FAIL on a measure and a channel. -/
def verdictEvent (g : GrpId) (k c : Nat) (v : Word) (s : State) : State :=
  raise 0x8503 [wordN (g.val + 256 + 4096 * k + 65536 * c), s.clk.tick, v] s

/-- ENG_VERDICT of a PASS: the measure, the channel and the value are free. -/
def passEvent (g : GrpId) (s : State) : State :=
  let (n, s) := s.freshMany 2
  raise 0x8503 [wordN g.val ||| (Config.freeWord n &&& 0xFF000), s.clk.tick, Config.freeWord (n + 1)] s

/-- ENG_VERDICT of a FAIL on FAULT, measure 0: the channel and the value are free. -/
def faultEvent (g : GrpId) (s : State) : State :=
  let (n, s) := s.freshMany 2
  raise 0x8503 [wordN (g.val + 256) ||| (Config.freeWord n &&& 0xF0000), s.clk.tick, Config.freeWord (n + 1)] s

/-- FAIL: the candidate leaves at the next boundary (R163); k is the measure, 0 FAULT. -/
def failAudition (g : GrpId) (k c : Nat) (v : Word) (s : State) : State :=
  let s := s.modGrp g fun y => { y with aud := y.aud.map fun a => { a with verdict := .fail } }
  atNext (.abort g (if k = 0 then 2 else 1)) (if k = 0 then faultEvent g s else verdictEvent g k c v s)

/-- The monitors at the end window of a tick (R162, R163); a target that faults in the tick has no value there. -/
def monitor (g : GrpId) (s : State) : State :=
  match s.audOf g with
  | none => s
  | some a =>
    let x := s.eng[a.cand]
    if x.st ≠ .candidate ∨ x.grp ≠ some g ∨ a.waiting ∨ a.verdict = .fail then s
    else if x.faultDue then
      failAudition g 0 0 0 (s.modGrp g fun y => { y with aud := some { a with ran := a.ran + 1 } })
    else
      let measured := a.settle ≤ a.ran
      let n := 2 ^ a.window
      let target : Option Engine := match s.grp[g].owner with
        | some o => if s.eng[o].faultDue then none else some s.eng[o]
        | none => none
      let meas := if measured then
          vof fun c => a.meas[c].step n x.latch[c] (if a.crit.null = none then none else target.map fun t => t.latch[c])
        else a.meas
      let s := s.modGrp g fun y => { y with aud := some { a with ran := a.ran + 1, meas := meas } }
      if measured then
        match firstFail ((idx 12).map fun c => Measure.fails a.crit n a.meas[c] meas[c]) with
        | some (k, c) => failAudition g k c (meas[fin 12 c].report n k) s
        | none => s
      else s

end Sys2Proof.Machine
end

