-- ==== Sys2Proof/Machine/Engine.lean ====
section
/-! DEFINITION. The rows of engines, memories and auditions at the end of a tick and between ticks (02, 05, 06, 14, 17). -/
namespace Sys2Proof.Machine
open Sys2Proof

/-! ### END_WINDOW (R35, R68) -/

/-- Issue stops, operations in flight complete, write-backs are made, the flag word is judged; a faulty tick is not latched. -/
def Engine.endTick (now : Nat) (x : Engine) : Engine :=
  let x := if x.stopped then x else x.flagLength 3
  let x := { x with regs := x.flight.foldl deliver1 x.regs, flight := [], req := none, stopped := true }
  let x := { x with regs.ac1 := x.regs.ac, regs.ac2 := x.regs.ac }
  let x := (x.writeBackP now).writeBackD now
  let x := { x with sticky := x.sticky ||| x.flags, maxStall := max x.maxStall x.stalls }
  if x.hasFault then { x with faultDue := true } else { x with latch := x.out }

/-- The code of an engine state, in the order of Table 02.4. -/
def EngState.code : EngState → Nat
  | .idle => 0 | .spare => 1 | .live => 2 | .candidate => 3 | .test => 4 | .faulted => 5

/-- ENG_FAULT, with a free group for an engine that is not LIVE, and what the firmware does about a LIVE engine's fault. -/
def faultFound (e : EngId) (s : State) : State :=
  let x := s.eng[e]
  let g := if x.st = .live then x.grp else none
  let (n, s) := s.fresh
  let grp : Word := match g with | some g => wordN (256 * g.val) | none => Config.freeWord n &&& 0xF00
  let s := raise 0x8501 [wordN (e.val + 4096 * x.st.code) ||| grp, x.flags.zeroExtend 32, s.clk.tick] s
  match g with
  | none => s
  | some g =>
    if s.grp[g].owner = some e then wantRestart g (x.restart s.clk.tick (tileOf e)) s else s

/-- The end window of one engine. -/
def endEngine (e : EngId) (s : State) : State :=
  let x := s.eng[e]
  if (x.st = .live ∨ x.st = .candidate) ∧ !x.clearing then
    let s := s.modEng e (Engine.endTick s.clk.now)
    if s.eng[e].faultDue then faultFound e s else s
  else s.modEng e fun x => (x.writeBackP s.clk.now).writeBackD s.clk.now

/-- A word as a flag word: bits 15:14 are never set, and LENGTH and its cause come together (Table 02.6). -/
def flagWord (w : Half) : Half := if bit w flLength && fld w 6 2 ≠ 0 then w &&& 0x3FFF else w &&& 0x3F3D

/-- A fault that the patterns of an engine in TEST have shown is a BIST result (R68). -/
def testFault (x : EngId × Half) (s : State) : State :=
  if s.eng[x.1].st = .test then
    let s := s.modEng x.1 fun (y : Engine) => { y with flags := flagWord x.2, sticky := y.sticky ||| flagWord x.2 }
    if (s.eng[x.1]).hasFault then faultFound x.1 (s.modEng x.1 fun (y : Engine) => { y with bistBad := true }) else s
  else s

/-- Every pending write-back of a delay memory is made. -/
def TileMem.endTick (now : Nat) (m : TileMem) : TileMem := forIdx 16 (TileMem.writeBack now) m

/-- END_WINDOW: the engines, with the flag words of those in TEST, the write-backs of the delay memories, the monitors. -/
def execEndWindow (bist : List (EngId × Half)) (s : State) : Out :=
  done <|
    let s := bist.foldl (fun s x => testFault x s) (forIdx 20 endEngine s)
    let s : State := { s with tile := vmap (TileMem.endTick s.clk.now) s.tile }
    forIdx 16 monitor s

/-! ### Auditions -/

/-- AUDITION_PASS (R163, R167). -/
def execAuditionPass (g : GrpId) (s : State) : Out :=
  done <| match s.audOf g with
    | some a =>
      if a.verdict = .running ∧ a.n ≤ a.ran ∧ !a.waiting then
        let s := passEvent g
          (s.modGrp g fun y => { y with aud := some { a with verdict := .pass } })
        if !a.confirm ∧ a.cgroup = 0 then atNext (.confirm g) s else s
      else s
    | none => s

/-- The start of a group's audition is due at the next boundary, and no copy of R152 holds it. -/
def State.startDue (s : State) (g : GrpId) : Bool :=
  s.fw.sched.any (fun e => e.due = .next && e.change = .audition g)
    && (match s.audOf g with | some a => !a.same || (s.swapWait [g]).isNone | none => false)

/-- AUDITION_START: at a boundary, before the first core cycle of its tick, a loaded candidate starts and its start window runs; a fault
restart that waits takes its spare, and starts at the next boundary (R161, R172). A fault restart is the firmware's, and waits for
FW_RESTART while Capo-H restarts (R439). -/
def execAuditionStart (g : GrpId) (s : State) : Out :=
  done <| match s.audOf g with
    | none => if s.sup.restarting then s else startRestart g s
    | some a =>
      if s.clk.tickRun ∧ s.clk.cyc = 0 ∧ s.startDue g then
        let s : State := { s with fw.sched := s.fw.sched.filter fun e => !(e.due = .next && e.change = .audition g) }
        ((startAudition g s).modEng a.cand (Engine.startTick s.clk.tick)).modGrp g (Group.audRuns a)
      else s

/-- AUDITION_TIMEOUT (R167). -/
def execAuditionTimeout (g : GrpId) (s : State) : Out :=
  done <| match s.audOf g with
    | some a => if a.verdict = .pass ∧ a.confirm ∧ !a.confirmed then atNext (.abort g 3) s else s
    | none => s

/-- CROSSFADE_END at boundary T + K, before the first core cycle of its tick (R63, R169); a freed engine that is due for test enters TEST
at the next boundary. -/
def execCrossfadeEnd (g : GrpId) (s : State) : Out :=
  done <| match s.grp[g].xf with
    | some f => if f.k ≤ f.j ∧ s.clk.cyc = 0 then endCrossfade g s else s
    | none => s

/-- The members of a commit group on other devices, as the manager knows them. -/
def State.others (s : State) (n : Fin 16) : List CgMember := if s.link.active then s.link.cg.filter fun x => x.n = n else []

/-- A frame is scheduled for a commit group. -/
def State.framed (s : State) (n : Fin 16) : Bool :=
  s.fw.sched.any fun e => match e.change, e.due with
    | .commitGroup k, .frame _ _ => k = n
    | .graph (some p), .frame _ _ => p.cgroup = n
    | _, _ => false

/-- The manager sends the schedule of a commit group's frame to every device. -/
def scheduleGroup (n : Fin 16) (f : Word) (s : State) : State :=
  let x : SchedOut := { f := f, kind := 2, id := s.link.nextSched, target := 0, all := true, cgroup := n, key := 0 }
  { s with link.schedOut := s.link.schedOut ++ [x], link.nextSched := (s.link.nextSched + 1) % 4096 }

/-- The manager schedules the commit of a group with members on other devices at a frame at least 64 frames ahead, for every device
(R157, R170). -/
def commitAcross (n : Fin 16) (s : State) : State :=
  let (f, s) := s.pickFrame 0
  let t := scheduleGroup n f s
  if s.members n = [] then t else schedule (.commitGroup n) (some f) t

/-- The frame of a graph that waits here for a commit group. -/
def State.graphAt (s : State) (n : Fin 16) : Option Word :=
  s.fw.sched.findSome? fun e => match e.change, e.due with
    | .graph (some p), .frame f _ => if p.cgroup = n then some f else none
    | _, _ => none

/-- Every member of a commit group elsewhere is ready, so are those here, and no frame has been sent. -/
def State.acrossReady (s : State) (n : Fin 16) : Bool :=
  ((s.others n).all fun x => x.ready) && (s.members n = [] || s.cgroupReady n)
    && !(s.link.schedOut ++ s.link.schedSent).any fun x => x.kind = 2 && x.cgroup = n

/-- A worker of a segment leaves the boundary of a commit group to its manager once a member of it came from there (log 131). -/
def State.waitsFrame (s : State) (n : Fin 16) : Bool :=
  s.member && s.link.pos.isSome && !s.link.active
    && (s.members n).any fun g => match s.audOf g with | some a => a.joined | none => false

/-- The members of a commit group commit once all are ready: at the next boundary, or, when some are on other devices, at a frame of the
manager (R170). -/
def groupReady (n : Fin 16) (s : State) : State :=
  if n = 0 then s
  else match s.graphAt n with
    | some f => if s.others n ≠ [] ∧ s.acrossReady n ∧ s.farEnough 0 f then scheduleGroup n f s else s
    | none =>
      if s.framed n then s
      else if s.others n = [] then (if s.cgroupReady n ∧ !s.waitsFrame n then atNext (.commitGroup n) s else s)
      else if s.acrossReady n then commitAcross n s
      else s

/-- COMMIT_GROUP_READY. -/
def execCommitGroupReady (n : Fin 16) (s : State) : Out := done (groupReady n s)

/-- BANK_COPY_COMPLETE (R152). -/
def execBankCopyComplete (g : GrpId) (s : State) : Out := done <| copyDone g s

/-- RESTART_SPARE_WAIT_EXPIRY, 64 ticks after the fault (R172); they do not run while Capo-H restarts (R439). -/
def execRestartSpareWaitExpiry (g : GrpId) (s : State) : Out :=
  done <| match s.grp[g].waiting, s.sup.restarting || (s.audOf g).isSome with
    | some r, false =>
      if (s.clk.tick - r.tick).toNat < 64 then s
      else raise 0x8506 [wordN g.val, 2] (s.modGrp g fun y => { y with waiting := none, givenUp := true })
    | _, _ => s

/-- REGION_CLEAR_COMPLETE: the restarted program starts at the next boundary (R45). -/
def execRegionClearComplete (e : EngId) (s : State) : Out :=
  done <| s.modEng e fun x => { x with clearing := false }

/-- FAULTED_ENGINE_READOUT: the engine leaves FAULTED at the next boundary (R63). -/
def execFaultedEngineReadout (e : EngId) (retire : Bool) (s : State) : Out :=
  done <| if s.eng[e].st = .faulted then atNext (.readOut e retire) s else s

/-- BIST_COMPLETE in the last tick of a run: the result, with which the engine leaves TEST at the boundary (R483). A fault that the patterns
have shown is a failure (R68). -/
def execBistComplete (e : EngId) (passed : Bool) (s : State) : Out :=
  done <| s.modEng e fun x => if x.st = .test ∧ x.bistLeft = 1 then { x with bist := some passed } else x

/-! ### Scrubbing (R147 to R149) -/

/-- The scrubber corrects and rewrites every single-bit error of an engine memory; `rebuild` says which uncorrectable words it
rewrites from a retained copy. Returns the state of the check bits, the corrected words and the uncorrectable ones left. -/
def scrubMem (now : Nat) (ecc : EccState) (hold : Option Nat) (rebuild : Nat → Bool) : EccState × List Nat × List Nat :=
  let singles := (ecc.bad.filter fun x => x.2 = .single && hold ≠ some x.1).map (·.1)
  let doubles := (ecc.bad.filter fun x => x.2 = .double && !rebuild x.1).map (·.1)
  let e := singles.foldl (fun e a => e.clear now a) ecc
  ({ e with bad := e.bad.filter fun x => x.2 = .single || !rebuild x.1 }, singles, doubles)

/-- Scrub the P space of an engine. -/
def scrubP (e : EngId) (s : State) : State :=
  let x := s.eng[e]
  let (ecc, l, _) := scrubMem s.clk.now x.pEcc x.pHold (fun _ => true)
  let twice := l.filter fun a => x.pEcc.recent s.clk.now a
  let s := s.modEng e fun x => { x with pEcc := ecc, pCorr := satAdd x.pCorr l.length }
  let s := cntSat (cntId 9 e.val 0) x.pCorr (satAdd x.pCorr l.length) s
  twice.foldl (fun s a => failedEngine e 0 a s) s

/-- Scrub the D space and the parameter arrays of an engine; D words under the window count as any other (the model's choice, log 144). -/
def scrubD (e : EngId) (s : State) : State :=
  let x := s.eng[e]
  let (ecc, l, bad) := scrubMem s.clk.now x.dEcc x.dHold (fun a => decide (65536 ≤ a))
  let twice := l.filter fun a => x.dEcc.recent s.clk.now a
  let s := s.modEng e fun x => { x with dEcc := ecc, dCorr := satAdd x.dCorr l.length }
  let s := cntSat (cntId 10 e.val 0) x.dCorr (satAdd x.dCorr l.length) s
  let s := twice.foldl (fun s a => failedEngine e (dKind a).1 (dKind a).2 s) s
  bad.foldl (fun s a => memErr 1 1 e.val a none s) s

/-- Scrub a delay memory. -/
def scrubTile (t : TileId) (s : State) : State :=
  let m := s.tile[t]
  let pend (a : Nat) : Bool := m.wb[bankOf a] = some a
  let singles := (m.ecc.bad.filter fun x => x.2 = .single && !pend x.1).map (·.1)
  let doubles := (m.ecc.bad.filter fun x => x.2 = .double).map (·.1)
  let twice := singles.filter fun a => m.ecc.recent s.clk.now a
  let corr := satAdd m.corr singles.length
  let s := s.modTile t fun m =>
    { m with ecc := singles.foldl (fun e a => e.clear s.clk.now a) m.ecc, corr := corr }
  let s := cntSat (cntId 11 t.val 0) m.corr corr s
  let s := twice.foldl (fun s a => failedBlock t a s) s
  doubles.foldl (fun s a => memErr 1 3 t.val a (some (m.tag (a / 2048))) s) s

/-- SCRUB: every word of every memory. -/
def execScrub (s : State) : Out :=
  done <| forIdx 4 scrubTile (forIdx 20 (fun e s => scrubD e (scrubP e s)) s)

/-! ### Maintenance (R392) -/

/-- MAINTENANCE_MIGRATION: the next engine in turn is freed and tested. -/
def execMaintenanceMigration (s : State) : Out :=
  done <|
    if s.fw.migrHours = 0 ∨ s.sup.restarting then s
    else
      let e := s.fw.migrNext
      { atNext (.engTest e) s with fw.migrNext := fin 20 (e.val + 1) }

end Sys2Proof.Machine
end

