-- ==== Sys2Proof/Machine/FwPort.lean ====
section
/-! DEFINITION. PORT commands (14 Table 14.5, R380; 08 R204, R205, R212, R213, R221, R222, R230, R232, R235; 17 R444). -/
namespace Sys2Proof.Machine
open Sys2Proof

/-! ### Settings (Table 14.4) -/

def PortMode.code : PortMode → Nat
  | .tdm => 0 | .i2s => 1 | .lj => 2

/-- BINDING: M, or saddle and mode and ratio. -/
def Binding.code : Binding → Nat
  | .m => 0
  | .saddle k t r => 8 + k.val + 16 * boolN t + 32 * r.toNat

def bindingOf (v : Word) : Binding :=
  if fld v 0 4 = 0 then .m else .saddle (fin 8 (fld v 0 3)) (bit v 4) (BitVec.ofNat 3 (fld v 5 3))

/-- The present value of a port setting. -/
def PortCfg.val (c : PortCfg) (id : Nat) : Nat :=
  match id with
  | 0x01 => c.mode.code
  | 0x02 => c.slots
  | 0x03 => (c.width - 16) / 8
  | 0x04 => c.delay
  | 0x05 => boolN c.fall
  | 0x06 => boolN c.fspolLow
  | 0x07 => c.binding.code
  | 0x08 => (c.clksrc.map fun n => 8 + n.val).getD 0
  | 0x09 => c.rxbase
  | 0x0A => c.txbase
  | 0x0B => boolN c.txHiz
  | 0x0C => c.stopq
  | 0x0D => c.block
  | _ => c.stampDiv

/-- A port setting takes a checked value. -/
def PortCfg.put (id : Nat) (v : Word) (c : PortCfg) : PortCfg :=
  let n := v.toNat
  match id with
  | 0x01 => { c with mode := if n = 0 then .tdm else if n = 1 then .i2s else .lj }
  | 0x02 => { c with slots := n }
  | 0x03 => { c with width := 16 + 8 * n }
  | 0x04 => { c with delay := n }
  | 0x05 => { c with fall := n = 1 }
  | 0x06 => { c with fspolLow := n = 1 }
  | 0x07 => { c with binding := bindingOf v }
  | 0x08 => { c with clksrc := if n = 0 then none else some (fin 8 (n - 8)) }
  | 0x09 => { c with rxbase := n }
  | 0x0A => { c with txbase := n }
  | 0x0B => { c with txHiz := n = 1 }
  | 0x0C => { c with stopq := n }
  | 0x0D => { c with block := n }
  | _ => { c with stampDiv := n }

/-! ### The conditions of R205 -/

/-- Twelve times the nominal frame rate: that of M, or ratio × M. -/
def State.rate12 (s : State) (c : PortCfg) : Nat :=
  s.clk.mrate.hz * match c.binding with | .m => 12 | .saddle _ _ r => ratio12 r

/-- Slots of each line: an AES port has one line. -/
def lineSlots (p : PortId) (c : PortCfg) (line : Nat) : Nat := if isAes p ∧ line = 1 then 0 else c.s

/-- A mask enables no slot at or above n. -/
def within (m : Word) (n : Nat) : Bool := m.toNat < 2 ^ n

/-- Enabled receive and transmit slots. -/
def Masks.nIn (k : Masks) : Nat := (bitsOf 32 k.in0).length + (bitsOf 32 k.in1).length
def Masks.nOut (k : Masks) : Nat := (bitsOf 32 k.out0).length + (bitsOf 32 k.out1).length

/-- The part of a configuration that a receive, or a transmit, side must keep. -/
def rxFits (c : PortCfg) (k : Masks) : Bool :=
  match c.binding with | .m => k.nIn = 0 || c.rxbase + k.nIn ≤ 128 | .saddle _ _ _ => k.nIn ≤ 4

def txFits (c : PortCfg) (k : Masks) : Bool :=
  match c.binding with | .m => k.nOut = 0 || c.txbase + k.nOut ≤ 64 | .saddle _ _ _ => k.nOut ≤ 2

/-- The frame fits 50 MHz. -/
def State.rateFits (s : State) (c : PortCfg) : Bool := c.s * c.width * s.rate12 c ≤ 600000000

/-- A configuration keeps every condition of R205 but those on other ports. -/
def State.cfgOk (s : State) (p : PortId) (c : PortCfg) (k : Masks) : Bool :=
  s.rateFits c && within k.in0 (lineSlots p c 0) && within k.in1 (lineSlots p c 1) && within k.out0 (lineSlots p c 0)
    && within k.out1 (lineSlots p c 1) && rxFits c k && txFits c k

/-- Two ranges overlap. -/
def overlap (a n b m : Nat) : Bool := n ≠ 0 && m ≠ 0 && a < b + m && b < a + n

/-- The receive or the transmit ranges of two ports in domain M overlap. -/
def rangesClash (c : PortCfg) (k : Masks) (d : PortCfg) (l : Masks) : Bool :=
  c.binding = .m && d.binding = .m && (overlap c.rxbase k.nIn d.rxbase l.nIn || overlap c.txbase k.nOut d.txbase l.nOut)

/-- Two ports are bound to one saddle. -/
def saddleClash (c d : PortCfg) : Bool :=
  match c.binding, d.binding with | .saddle a _ _, .saddle b _ _ => a = b | _, _ => false

/-- The masks that a port uses from its next entry to RUN or switch on. -/
def Port.newest (x : Port) : Masks := x.shadow.getD x.masks

/-- Port p with a configuration clashes with another port that p's command counts. -/
def State.portClash (s : State) (cfg : PortId → PortCfg) (counts : PortId → Bool) (p : PortId) (k : Masks) : Bool :=
  (idx 12).any fun q => q ≠ p && ((counts q && rangesClash (cfg p) k (cfg q) s.port[q].newest) || saddleClash (cfg p) (cfg q))

/-! ### PORT_SET and PORT_GET -/

/-- The configuration of a port after the pairs of a command. -/
def State.cfgAfter (s : State) (l : List Pair) (p : PortId) : PortCfg :=
  (l.filter fun x => x.i = p.val).foldl (fun c x => c.put x.id x.v) s.port[p].cfg

/-- Ports that a command names. -/
def pairPorts (l : List Pair) : List PortId := (idx 12).filter fun p => l.any fun x => x.i = p.val

/-- The conditions on a port's own values, located at its last pair. -/
def State.portRelations (s : State) (l : List Pair) : List (Option Fail) :=
  (pairPorts l).map fun p => match (l.reverse.find? fun x => x.i = p.val) with
    | some x => need (s.cfgOk p (s.cfgAfter l p) s.port[p].newest) (eRange (x.w + 1) 0 0)
    | none => none

/-- A setting that changes only while the port is OFF. -/
def offOnly (id : Nat) : Bool := id ≠ 0x0C && id ≠ 0x0E

/-- What the present state refuses. -/
def State.portRefuses (s : State) (l : List Pair) : Option Fail :=
  firstOf (l.map (fun x => need (!(offOnly x.id && s.port[fin 12 x.i].st ≠ .off)) (.of eState))
    ++ (pairPorts l).map fun p =>
      need (!s.portClash (s.cfgAfter l) (fun q => s.port[q].st ≠ .off) p s.port[p].newest) (.of eConflict))

/-- The saddles follow the bindings: one that no port names any longer is unbound, one that a port newly names is muted until the
port runs (R195, R199). -/
def rebind (s : State) : State :=
  { s with sad := vof fun k =>
      let x := s.sad[k]
      match (idx 12).find? fun p => s.port[p].saddle = some k with
      | none => if x.st = .unbound then x else { Saddle.unbound with mutes := x.mutes }
      | some p => match s.port[p].cfg.binding with
        | .saddle _ t r =>
          if x.port = some p ∧ x.tracking = t ∧ x.ratio = r then x
          else { Saddle.unbound with st := .muted, port := some p, tracking := t, ratio := r, cause := 3, mutes := x.mutes }
        | .m => x }

def portSetCmd : Cmd :=
  { code := 0x0301, len := pairsLen,
    check := fun s m => firstOf (setFail 1 (fun _ => none) m :: s.portRelations (pairs m)),
    act := fun m _ s => orElse m (s.portRefuses (pairs m)) (fun s =>
      ok m [] (rebind { s with port := vof fun p => { s.port[p] with cfg := s.cfgAfter (pairs m) p } })) s }

def portGetCmd : Cmd :=
  { code := 0x0302, check := fun _ m => getFail 1 m,
    act := fun m _ s => ok m [wordN (s.port[fin 12 (mfld 2 8 8 m)].cfg.val (mfld 2 0 8 m))] s }

/-! ### PORT_START and PORT_STOP -/

/-- The firmware starts the CLKOUT that clocks a port; one whose chain is not ready stays gated (R212, R296). -/
def startClk (p : PortId) (s : State) : State :=
  match s.port[p].cfg.clksrc with
  | none => s
  | some n =>
    if s.clk.out[n].started then s
    else
      let s := s.modOut n fun (o : ClkOut) => { o with started := true }
      if s.restartable n then runOuts (fun k => k = n) s else s

/-- OFF to WAIT. -/
def startPort (p : PortId) (s : State) : State :=
  portTo p .wait 0 (s.modPort p fun x => { x.idleBufs.rest 0 with done := 0, last := ([], []) }) |> startClk p

/-- The ports of a mask that a start takes from OFF. -/
def State.starts (s : State) (m : Msg) : List PortId := (bitsOf 12 (mword m 2)).filter fun p => s.port[p].st = .off

def portStartCmd : Cmd :=
  { code := 0x0303,
    check := fun s m => firstOf [fMask 2 12 m,
      need ((s.starts m).all fun p => s.cfgOk p s.port[p].cfg s.port[p].newest) (eRange 2 0 0), fTail 3 m],
    act := fun m _ s =>
      let l := s.starts m
      let counts (q : PortId) : Bool := s.port[q].st ≠ .off || l.contains q
      orElse m (need (l.all fun p => !s.portClash (fun q => s.port[q].cfg) counts p s.port[p].newest) (.of eConflict))
        (fun s => ok m [] (l.foldl (fun s p => startPort p s) s)) s }

/-- A STOP command (Table 08.4, R213, R226). -/
def stopPort (p : PortId) (s : State) : State :=
  match s.port[p].st with
  | .run => portTo p .stopping 1 (s.modPort p fun x =>
      { x.fall 64 with stopLeft := 64 + x.cfg.stopq, loop := false, loopOff := false })
  | .wait | .lost => portTo p .off 1 (s.modPort p fun x => x.idleBufs.rest 0)
  | .off | .stopping => s

def portStopCmd : Cmd :=
  { code := 0x0304, check := fun _ m => firstOf [fMask 2 12 m, fTail 3 m],
    act := fun m _ s => ok m [] ((bitsOf 12 (mword m 2)).foldl (fun s p => stopPort p s) s) }

/-! ### PORT_MASK -/

def masksOf (m : Msg) : Masks := { in0 := mword m 3, in1 := mword m 4, out0 := mword m 5, out1 := mword m 6 }

def msgPort (m : Msg) : PortId := fin 12 (mfld 2 0 32 m)

/-- The configuration that a command would put in force: the rate at the port's word, the four masks each at its own (R205). -/
def State.maskFails (s : State) (m : Msg) : List (Option Fail) :=
  let p := msgPort m
  let c := s.port[p].cfg
  let k := masksOf m
  [need (s.rateFits c) (eRange 2 0 0), need (within k.in0 (lineSlots p c 0)) (eRange 3 0 0), need (within k.in1 (lineSlots p c 1)) (eRange 4 0 0),
   need (within k.out0 (lineSlots p c 0)) (eRange 5 0 0), need (within k.out1 (lineSlots p c 1)) (eRange 6 0 0),
   need (rxFits c k) (eRange 3 0 0), need (txFits c k) (eRange 5 0 0)]

/-- A shadow mask; in RUN a fade-out begins in each direction, or the one that runs goes on (R221, R222). -/
def Port.mask (k : Masks) (x : Port) : Port :=
  let y := { x with shadow := some k }
  if x.st ≠ .run then y
  else if x.inM then (if x.fade.goal ≠ 0 then y.lower else y)
  else { y with fade := if x.fade.goal ≠ 0 then x.fade.move 0 (1/64) else x.fade,
                txFade := if x.txFade.goal ≠ 0 then x.txFade.move 0 (1/64) else x.txFade }

def portMaskCmd : Cmd :=
  { code := 0x0305, len := fun _ => 8,
    check := fun s m => firstOf (fRange 2 0 32 0 11 m :: s.maskFails m ++ [fTail 7 m]),
    act := fun m _ s =>
      let p := msgPort m
      orElse m (need (!s.portClash (fun q => s.port[q].cfg) (fun q => s.port[q].st ≠ .off) p (masksOf m)) (.of eConflict))
        (fun s => ok m [s.clk.tick + 1] (s.modPort p (Port.mask (masksOf m)))) s }

/-! ### Status, AES, microphones, loop test -/

def portStatusCmd : Cmd :=
  { code := 0x0306, check := fun _ m => firstOf [fRange 2 0 32 0 11 m, fTail 3 m],
    act := fun m _ s =>
      let x := s.port[msgPort m]
      ok m [wordN x.st.code, x.rxSlip, x.txSlip, x.glitch, x.lostCnt, wordN x.margin, wordI x.rateErr] s }

/-- PORT_AES_GET; before a block has been accepted the bytes are free. -/
def portAesGetCmd : Cmd :=
  { code := 0x0307, check := fun _ m => firstOf [fRange 2 0 32 8 11 m, fCode 3 0 32 1 m, fTail 4 m],
    act := fun m _ s => match (s.port[msgPort m].aes[fin 2 (mfld 3 0 1 m)]).status with
      | some b => ok m (packBytes b.toList 6) s
      | none => let (n, t) := s.freshMany 6; ok m ((List.range 6).map fun i => Config.freeWord (n + i)) t }

/-- The 24 bytes of a command, from word 4. -/
def msgBytes (m : Msg) : Vector Byte 24 := vpad 24 0 (wordBytes ((m.w.toList.drop 4).take 6))

/-- Programmed values wait for the next Z preamble (R232). -/
def AesCh.program (m : Msg) (a : AesCh) : AesCh :=
  let now := a.next.getD (a.txStatus, a.txUser, a.crcc, a.v)
  let b := msgBytes m
  let user := bit (mword m 3) 1
  { a with next := some (if user then now.1 else b, if user then b else now.2.1, bit (mword m 3) 2, bit (mword m 3) 3) }

def portAesSetCmd : Cmd :=
  { code := 0x0308, len := fun _ => 10, check := fun _ m => firstOf [fRange 2 0 32 8 11 m, fZero 3 4 28 m, fTail 10 m],
    act := fun m _ s => ok m [] (modAes (msgPort m) (fin 2 (mfld 3 0 1 m)) (AesCh.program m) s) }

def portMicCmd : Cmd :=
  { code := 0x0309, check := fun _ m => firstOf [twoMasks 16 m, fPairMask 4 16 m, fTail 5 m],
    act := fun m _ s =>
      let f (i : MicId) (x : Mic) : Mic :=
        let x := if bit (mword m 3) i.val then x.disable else x
        let x := if bit (mword m 2) i.val then x.enable else x
        { x with hp := bit (mword m 4) i.val }
      ok m [] { s with mic := vof fun i => f i s.mic[i] } }

/-- PORT_LOOP on and off (R444). -/
def Port.setLoop (on : Bool) (x : Port) : Port :=
  if on then
    if x.loop then { x with loopOff := false }
    else { x.fall 64 with loop := true, loopOff := false, loopErr := false }
  else { x with loopOff := x.loop }

def portLoopCmd : Cmd :=
  { code := 0x030A, check := fun _ m => firstOf [fRange 2 0 32 0 11 m, fCode 3 0 32 1 m, fTail 4 m],
    act := fun m _ s =>
      let p := msgPort m
      let other := (idx 12).any fun q => q ≠ p && s.port[q].loop
      orElse m (firstOf [need (s.port[p].st = .run) (.of eState), need (!other || mword m 3 = 0) (.of eBusy)])
        (fun s => ok m [] (s.modPort p (Port.setLoop (mword m 3 = 1)))) s }

/-! ### The rows -/

def execPortSet (m : Msg) (s : State) : Out := row portSetCmd "PORT_SET" m s
def execPortGet (m : Msg) (s : State) : Out := row portGetCmd "PORT_GET" m s
def execPortStart (m : Msg) (s : State) : Out := row portStartCmd "PORT_START" m s
def execPortStop (m : Msg) (s : State) : Out := row portStopCmd "PORT_STOP" m s
def execPortMask (m : Msg) (s : State) : Out := row portMaskCmd "PORT_MASK" m s
def execPortStatus (m : Msg) (s : State) : Out := row portStatusCmd "PORT_STATUS" m s
def execPortAesGet (m : Msg) (s : State) : Out := row portAesGetCmd "PORT_AES_GET" m s
def execPortAesSet (m : Msg) (s : State) : Out := row portAesSetCmd "PORT_AES_SET" m s
def execPortMic (m : Msg) (s : State) : Out := row portMicCmd "PORT_MIC" m s
def execPortLoop (m : Msg) (s : State) : Out := row portLoopCmd "PORT_LOOP" m s

end Sys2Proof.Machine
end

