-- ==== Sys2Proof/Machine/FwMtx.lean ====
section
/-! DEFINITION. MTX commands (14 Table 14.6, R383, R384; 07 R176, R180 to R184, R193 to R198). -/
namespace Sys2Proof.Machine
open Sys2Proof

/-! ### Batches (R182, R383) -/

/-- The value of a batch entry, at word w. -/
def entryValueFail (k : Nat) (v : Word) (w i : Nat) : Option Fail :=
  let x := v.toInt
  let inside (a b : Int) : Option Fail := need (decide (a ≤ x) && decide (x ≤ b)) (eRange w 0 i)
  if k ≤ 3 then (if x = -32768 then some (eReserved w 0 i) else inside (-32767) 32767)
  else if k = 4 then inside 0 4095
  else if k = 5 then need (v.toNat ≤ 2) (eReserved w 0 i)
  else if k = 6 then inside (-100) 0
  else inside 1 10000

/-- Entry i with its words a at word wa and b at word wb (Table 14.10). -/
def entryCheck (a b : Word) (wa wb i : Nat) : Option Fail :=
  let k := fld a 28 4
  firstOf [need (!(k = 6 || k = 7) || fld a 0 8 = 0) (eReserved wa 0 i),
    need (k ≤ 1 || 6 ≤ k || fld a 8 9 = 0) (eReserved wa 8 i), need (fld a 17 11 = 0) (eReserved wa 17 i),
    need (k < 8) (eReserved wa 28 i), entryValueFail k b wb i]

def entryOf (a b : Word) : BatchEntry := { kind := fld a 28 4, row := fld a 8 9, col := fld a 0 8, val := b.toInt }

def inlineCount (m : Msg) : Nat := mfld 2 0 32 m

/-- The words of an inline batch. -/
def batchLen (m : Msg) : Nat := if 1 ≤ inlineCount m ∧ inlineCount m ≤ 6 then max 8 (3 + 2 * inlineCount m) else 8

def inlineFails (m : Msg) : List (Option Fail) :=
  (List.range (inlineCount m)).map fun i => entryCheck (mword m (3 + 2 * i)) (mword m (4 + 2 * i)) (3 + 2 * i) (4 + 2 * i) i

def inlineEntries (m : Msg) : List BatchEntry :=
  (List.range (inlineCount m)).map fun i => entryOf (mword m (3 + 2 * i)) (mword m (4 + 2 * i))

/-- MTX_BATCH: entries inline. -/
def mtxBatchCmd : Cmd :=
  { code := 0x0401, timed := true, kind := fun _ => 3, len := batchLen,
    check := fun _ m => match fRange 2 0 32 1 6 m with
      | some f => some f
      | none => firstOf (inlineFails m ++ [fTail (3 + 2 * inlineCount m) m]),
    act := fun m f s => ok m [s.boundary f] (schedule (.batch (inlineEntries m)) f s) }

/-- The object that a handle field names, or E_RANGE at the field. -/
def needObject (s : State) (h : Nat) (k : XferKind) (w b : Nat) : Option Fail := need (s.object h k).isSome (eRange w b 0)

/-- The bytes of the object. -/
def State.objBytes (s : State) (h : Nat) (k : XferKind) : List Byte := (s.object h k).getD []

def bulkFails (l : List Byte) : List (Option Fail) :=
  (List.range (l.length / 8)).map fun i => entryCheck (objWord l (2 * i)) (objWord l (2 * i + 1)) 0 1 i

def bulkEntries (l : List Byte) : List BatchEntry :=
  (List.range (l.length / 8)).map fun i => entryOf (objWord l (2 * i)) (objWord l (2 * i + 1))

/-- MTX_BATCHH: 1 to 4,096 entries of a BATCH object. -/
def mtxBatchhCmd : Cmd :=
  { code := 0x0402, timed := true, kind := fun _ => 3,
    check := fun s m =>
      let l := s.objBytes (mfld 2 0 32 m) .batch
      firstOf ([fHandle 2 0 32 m, needObject s (mfld 2 0 32 m) .batch 2 0, fTail 3 m,
        need (l.length % 8 = 0 && 8 ≤ l.length && l.length ≤ 32768) (eRange 2 0 0)] ++ bulkFails l),
    act := fun m f s => ok m [s.boundary f] (schedule (.batch (bulkEntries (s.objBytes (mfld 2 0 32 m) .batch))) f s) }

/-! ### Reads -/

def mtxReadCmd : Cmd :=
  { code := 0x0403, check := fun _ m => firstOf [fRange 2 0 32 0 511 m, fRange 3 0 32 0 255 m, fTail 4 m],
    act := fun m _ s =>
      let x := xpGet s.mtx.xp (xpKey (mfld 2 0 32 m) (mfld 3 0 32 m))
      ok m [wordI x.a, wordI x.b, wordI x.cur] s }

def ScaleMode.code : ScaleMode → Nat
  | .off => 0 | .inv => 1 | .invSqrt => 2

def mtxColreadCmd : Cmd :=
  { code := 0x0404, check := fun _ m => firstOf [fRange 2 0 32 0 255 m, fTail 3 m],
    act := fun m _ s =>
      let c := fin 256 (mfld 2 0 32 m)
      let x := s.mtx.cols[c]
      ok m [wordI x.hostA, wordI x.hostB, wordI x.a, wordI x.b, wordN x.rc, wordN x.mode.code, wordN x.f, wordN (s.nOf c), x.sat] s }

/-! ### Route sets, generators, saddles -/

def mtxArmCmd : Cmd :=
  { code := 0x0405, safety := true, check := fun _ m => firstOf [fCode 2 0 32 1 m, fRange 3 0 32 0 4095 m, fTail 4 m],
    act := fun m f s => ok m [] (schedule (.arm (mword m 2 = 1) (mfld 3 0 32 m)) f s) }

/-- The phase-step words of 0.45 × M and of 10 Hz. -/
def topStep : Nat := 1932735283
def State.lowStep (s : State) : Nat := (2 * 10 * 4294967296 + s.clk.mrate.hz) / (2 * s.clk.mrate.hz)

/-- A frequency word at word w, and a level. -/
def fFreq (w lo : Nat) (m : Msg) : Option Fail := fRange w 0 32 lo topStep m
def fLevel (w : Nat) (m : Msg) : Option Fail := fInt w (-1200) 0 m

/-- A CHIME partial at word w; one with level −1,201 is unused. -/
def fPartial (w : Nat) (m : Msg) : Option Fail :=
  if (mword m (w + 1)).toInt = -1201 then none else firstOf [fFreq w 0 m, fLevel (w + 1) m]

/-- The words that a generator type uses. -/
def genWords (ty : Nat) : Nat := if ty = 0 then 4 else if ty = 2 then 14 else if ty = 4 then 9 else 6

/-- The parameters of a generator type (Table 07.6). -/
def State.genFail (s : State) (ty : Nat) (m : Msg) : Option Fail :=
  if ty = 1 ∨ ty = 5 then firstOf [fFreq 4 0 m, fLevel 5 m]
  else if ty = 2 then firstOf [fPartial 4 m, fPartial 6 m, fPartial 8 m, fPartial 10 m, fRange 12 0 32 0 100 m, fRange 13 0 32 10 10000 m]
  else if ty = 3 then firstOf [fCode 4 0 32 1 m, fInt 5 (-1200) (-30) m]
  else if ty = 4 then
    firstOf [fFreq 4 s.lowStep m, fFreq 5 s.lowStep m, fRange 6 0 32 10 60000 m, fCode 7 0 32 1 m, fLevel 8 m]
  else none

def mtxGenCmd : Cmd :=
  { code := 0x0406, len := fun m => max 8 (genWords (mfld 3 0 32 m)),
    check := fun s m =>
      let ty := mfld 3 0 32 m
      firstOf [fRange 2 0 32 0 15 m, fCode 3 0 32 5 m, s.genFail ty m, fTail (genWords ty) m],
    act := fun m f s =>
      let ps := (List.range 10).map fun i => (mword m (4 + i)).toInt
      ok m [s.boundary f] (schedule (.gen (fin 16 (mfld 2 0 32 m)) (mfld 3 0 32 m) ps) f s) }

def mtxStrikeCmd : Cmd :=
  { code := 0x0407, safety := true, check := fun _ m => firstOf [fMask 2 16 m, fTail 3 m],
    act := fun m f s => ok m [s.boundary f] (schedule (.strike ((mword m 2).truncate 16)) f s) }

/-- MTX_SADDLE: the code of the state is free; the estimate is free before the first window; the delay is 96 ticks in locked
mode, 128 ± 2 in tracking mode (Table 07.8), and free without a binding. -/
def mtxSaddleCmd : Cmd :=
  { code := 0x0408, check := fun _ m => firstOf [fRange 2 0 32 0 7 m, fTail 3 m],
    act := fun m _ s =>
      let x := s.sad[fin 8 (mfld 2 0 32 m)]
      let (n, s) := s.freshMany 3
      let free (i : Nat) : Word := Config.freeWord (n + i)
      let est : Word := match x.est with | some e => wordN e | none => free 1
      let delay : Word := if x.st = .unbound then free 2 else if x.tracking then wordN (126 + (free 2).toNat % 5) else 96
      ok m [free 0, est, delay, x.mutes] s }

/-! ### The rows -/

def execMtxBatch (m : Msg) (s : State) : Out := row mtxBatchCmd "MTX_BATCH" m s
def execMtxBatchh (m : Msg) (s : State) : Out := row mtxBatchhCmd "MTX_BATCHH" m s
def execMtxRead (m : Msg) (s : State) : Out := row mtxReadCmd "MTX_READ" m s
def execMtxColread (m : Msg) (s : State) : Out := row mtxColreadCmd "MTX_COLREAD" m s
def execMtxArm (m : Msg) (s : State) : Out := row mtxArmCmd "MTX_ARM" m s
def execMtxGen (m : Msg) (s : State) : Out := row mtxGenCmd "MTX_GEN" m s
def execMtxStrike (m : Msg) (s : State) : Out := row mtxStrikeCmd "MTX_STRIKE" m s
def execMtxSaddle (m : Msg) (s : State) : Out := row mtxSaddleCmd "MTX_SADDLE" m s

end Sys2Proof.Machine
end

