-- ==== Sys2Proof/Machine/FwEng.lean ====
section
/-! DEFINITION. ENG and TUNE commands (14 Tables 14.6 and 14.11, R382, R385, R485; 06 R150 to R171; 02 R11, R63, R65). -/
namespace Sys2Proof.Machine
open Sys2Proof

def fGroup (m : Msg) : Option Fail := fRange 2 0 32 0 15 m
def msgGrp (m : Msg) : GrpId := fin 16 (mfld 2 0 32 m)

/-- The loader's verdict on an object: E_OBJECT with the check code and the packet address. -/
def loadFail (l : List Byte) (budget : Nat) : Option Fail :=
  match checkObject l budget with
  | .ok _ => none
  | .bad c a => some { status := 0x30, info := c, ws := [wordN a] }

def loaded (l : List Byte) (budget : Nat) : Option Program := match checkObject l budget with | .ok p => some p | .bad _ _ => none

/-! ### ENG_START -/

/-- The group that an ENG_START names, or the object's DEFGROUP. -/
def startGroup (m : Msg) (p : Program) : Nat := if mfld 3 0 32 m = 0xFF then p.defgrp else mfld 3 0 32 m

/-- Direct starts that wait for their boundary. -/
def State.starting (s : State) : List GrpId :=
  s.fw.sched.filterMap fun e => match e.change with | .start g _ => some g | _ => none

def engStartCheck (s : State) (m : Msg) : Option Fail :=
  let l := s.objBytes (mfld 2 0 32 m) .program
  firstOf [fHandle 2 0 32 m, needObject s (mfld 2 0 32 m) .program 2 0,
    need (mfld 3 0 32 m ≤ 15 || mfld 3 0 32 m = 0xFF) (eRange 3 0 0), fTail 4 m, loadFail l s.clk.mrate.budget,
    need ((loaded l s.clk.mrate.budget).all fun p => decide (startGroup m p ≤ 15)) (eRange 3 0 0)]

/-- Start a checked program: a spare under R158, its lines placed, LIVE at the next boundary. -/
def startProgram (m : Msg) (p : Program) (s : State) : State :=
  let g := fin 16 (startGroup m p)
  if s.grp[g].owner.isSome ∨ s.starting.contains g then deny m eState s
  else match s.directSpare with
    | none => deny m eResource s
    | some e =>
      if 16 ≤ s.liveCount + s.starting.length then deny m eResource s
      else match loadLive e g p s with
        | none => deny m eResource s
        | some t => ok m [wordN e.val, s.boundary none] (schedule (.start g e) none t)

def engStartCmd : Cmd :=
  { code := 0x0501, check := engStartCheck,
    act := fun m _ s => match loaded (s.objBytes (mfld 2 0 32 m) .program) s.clk.mrate.budget with
      | some p => startProgram m p s
      | none => deny m eInternal s }

def engRemoveCmd : Cmd :=
  { code := 0x0502, timed := true, check := fun _ m => firstOf [fGroup m, fTail 3 m],
    act := fun m f s => orElse m (need s.grp[msgGrp m].owner.isSome (.of eState))
      (fun s => ok m [s.boundary f] (schedule (.remove (msgGrp m)) f s)) s }

/-! ### ENG_AUDITION (Table 14.11) -/

/-- PROGRAM is SAME. -/
def isSame (m : Msg) : Bool := mfld 2 8 4 m = 0

/-- A criterion's code, and its limit word. -/
def critCode (m : Msg) (i : Nat) : Nat := mfld 7 (2 * i) 2 m
def limitWord (i : Nat) : Nat := if i = 4 then 13 else if i = 5 then 12 else 8 + i

/-- The ticks that a request asks for. -/
def audN (m : Msg) : Nat := if mfld 3 0 32 m = 0 then 1024 else mfld 3 0 32 m

/-- The criterion whose limit stands in word w, 8 to 13. -/
def limitCrit (w : Nat) : Nat := if w = 12 then 5 else if w = 13 then 4 else w - 8

def audFields (s : State) (m : Msg) : List (Option Fail) :=
  [fZero 2 4 4 m, fRange 2 8 4 0 8 m, if isSame m then none else needObject s (mfld 2 8 4 m) .program 2 8, fCode 2 12 2 2 m, fZero 2 15 1 m,
   need (mfld 2 20 5 m = 0 || (6 ≤ mfld 2 20 5 m && mfld 2 20 5 m ≤ 16)) (eRange 2 20 0), fZero 2 25 7 m,
   need (mfld 3 0 32 m = 0 || (64 ≤ mfld 3 0 32 m && mfld 3 0 32 m ≤ 1048576)) (eRange 3 0 0),
   need (mfld 4 0 32 m ≤ 65536 && mfld 4 0 32 m < audN m) (eRange 4 0 0), fRange 5 0 32 0 3600 m, fRange 6 0 32 0 4096 m]
  ++ (List.range 5).map (fun i => fCode 7 (2 * i) 2 2 m) ++ [fZero 7 12 20 m]
  ++ (List.range 6).map (fun j => need (critCode m (limitCrit (8 + j)) = 2 || mword m (8 + j) = 0) (eReserved (8 + j) 0 0))
  ++ [fTail 14 m]

/-- A level criterion with its default. -/
def critLevel (m : Msg) (i : Nat) (d : Option Int) : Option Int :=
  if critCode m i = 0 then d else if critCode m i = 1 then none else some (mword m (limitWord i)).toInt

def critOf (m : Msg) (same : Bool) : Criteria :=
  let d := Criteria.default same
  { peak := critLevel m 0 d.peak, rms := critLevel m 1 d.rms, growth := critLevel m 2 d.growth, dc := critLevel m 3 d.dc,
    sat := if critCode m 4 = 2 then some (mword m 13).toNat else none,
    null := if critCode m 5 = 0 then d.null else if critCode m 5 = 1 then none
      else if critCode m 5 = 2 then some (some (mword m 12).toInt) else some none }

def msgTarget (m : Msg) : GrpId := fin 16 (mfld 2 0 4 m)

/-- The audition of a request on a candidate; `far`: it came through the tunnel. -/
def audOfMsg (m : Msg) (far : Bool) (e : EngId) : Audition :=
  let same := isSame m
  { Audition.default .host e same with
    n := audN m, settle := mfld 4 0 32 m, window := if mfld 2 20 5 m = 0 then 10 else mfld 2 20 5 m, crit := critOf m same,
    confirm := if mfld 2 12 2 m = 0 then !same else mfld 2 12 2 m = 1,
    timeout := if mfld 5 0 32 m = 0 then 60 else mfld 5 0 32 m, k := mfld 6 0 32 m, cgroup := fin 16 (mfld 2 16 4 m),
    joined := far, inherit := !bit (mword m 2) 14 }

def audCheck (s : State) (m : Msg) : Option Fail :=
  let h := mfld 2 8 4 m
  let l := s.objBytes h .program
  firstOf (audFields s m ++ [if isSame m then none else loadFail l s.clk.mrate.budget])

/-- The spare of a host audition (Table 06.1). -/
def State.audSpare (s : State) (g : GrpId) : Option EngId :=
  match s.grp[g].owner with | some o => s.tileSpare (tileOf o) | none => s.directSpare

/-- What a request loads: the target's program for SAME, with its arrays, or the object's. -/
def State.request (s : State) (m : Msg) : Option Loading :=
  if isSame m then s.grp[msgTarget m].owner.map fun o => (s.eng[o]).loading
  else (loaded (s.objBytes (mfld 2 8 4 m) .program) s.clk.mrate.budget).map Program.loading

/-- The boundary at which a request's audition starts: a migration waits for the copies of R152 on its target (R150). -/
def State.audBoundary (s : State) (m : Msg) (f : Option Word) : Word :=
  let b := s.boundary f
  let g := msgTarget m
  let swaps := s.fw.sched.any fun e => match e.change, e.due with
    | .swap mask _, .next => mask.getLsbD g.val
    | _, _ => false
  if f.isSome ∨ !isSame m then b
  else if swaps then b + 2
  else match s.grp[g].copyTo with
    | some t => if 0 < (t - b).toInt then t else b
    | none => b

/-- The boundary at which it starts after a preemption: not before the second one from now. -/
def State.preemptBoundary (s : State) (m : Msg) (f : Option Word) : Word :=
  let b := s.clk.tick + 2
  if f.isNone ∧ 0 < (b - s.audBoundary m f).toInt then b else s.audBoundary m f

def audStateFail (s : State) (m : Msg) : Option Fail :=
  let g := msgTarget m
  let live := s.grp[g].owner.isSome
  firstOf [need (s.audOf g).isNone (.of eBusy), need (live || !isSame m) (.of eState),
    need (live || (critOf m (isSame m)).null = none) (.of eState)]

def audition (m : Msg) (f : Option Word) (s : State) : State :=
  let g := msgTarget m
  match s.request m, s.audSpare g with
  | none, _ => deny m eResource s
  | some l, some e => match placeAudition g (audOfMsg m s.link.tunnelled e) l s with
    | some t => ok m [wordN e.val, s.audBoundary m f] (schedule (.audition g) f t)
    | none => deny m eResource s
  | some l, none => match s.victim false (s.grp[g].owner.map tileOf) with
    | none => deny m eResource s
    | some (h, e) => match preempt h g (audOfMsg m s.link.tunnelled e) l f s with
      | some t => ok m [wordN e.val, s.preemptBoundary m f] t
      | none => deny m eResource s

def engAuditionCmd : Cmd :=
  { code := 0x0503, timed := true, len := fun _ => 14, check := audCheck,
    act := fun m f s => orElse m (audStateFail s m) (audition m f) s }

/-! ### ENG_CONFIRM and ENG_ABORT (R167, R170, R171) -/

/-- The crossfade that a commit will omit (R169). -/
def State.omits (s : State) (a : Audition) : Bool := a.k ≠ 0 && decide (15 < s.liveCount)

/-- The confirmation of a member of a commit group: the boundary, when it lets the group commit at the next one. -/
def confirmMember (m : Msg) (n : Fin 16) (s : State) : State :=
  if s.cgroupReady n ∧ !s.framed n ∧ s.others n = [] ∧ !s.waitsFrame n then ok m [s.boundary none] (atNext (.commitGroup n) s)
  else ok m [0xFFFFFFFF] s

def confirmFail (s : State) (m : Msg) (f : Option Word) : Option Fail :=
  match s.audOf (msgGrp m) with
  | some a => need (a.verdict = .pass && a.confirm && !a.confirmed && !(a.cgroup ≠ 0 && f.isSome)) (.of eState)
  | none => some (.of eState)

def confirm (m : Msg) (f : Option Word) (s : State) : State :=
  let g := msgGrp m
  match s.audOf g with
  | none => s
  | some a =>
    let s := s.modGrp g fun y => { y with aud := some { a with confirmed := true } }
    if a.cgroup ≠ 0 then confirmMember m a.cgroup s
    else respond m (boolN (s.omits a)) (2 * boolN (s.omits a)) [s.boundary f] (schedule (.confirm g) f s)

def engConfirmCmd : Cmd :=
  { code := 0x0504, timed := true, kind := fun _ => 2, check := fun _ m => firstOf [fGroup m, fTail 3 m],
    act := fun m f s => orElse m (confirmFail s m f) (confirm m f) s }

def engAbortCmd : Cmd :=
  { code := 0x0505, check := fun _ m => firstOf [fGroup m, fTail 3 m],
    act := fun m _ s => orElse m (need (s.audOf (msgGrp m)).isSome (.of eState))
      (fun s => ok m [s.boundary none] (atNext (.abort (msgGrp m) 0) s)) s }

/-! ### Status, clear, test -/

/-- The engine that a status reports: the owner, or a FAULTED former owner. -/
def State.statusEngine (s : State) (g : GrpId) : Option EngId :=
  match s.grp[g].owner with
  | some o => some o
  | none => (idx 20).find? fun e => s.eng[e].st = .faulted && s.eng[e].grp = some g

/-- What ENG_STATUS says of the engine; without one the values are free. -/
def statusWords (g : GrpId) (s : State) : List Word × State :=
  let run : Word := wordN (boolN (s.audOf g).isSome <<< 16)
  match s.statusEngine g with
  | some e =>
    let x := s.eng[e]
    ([wordN (x.st.code + e.val <<< 8) ||| run, x.sticky.zeroExtend 32, wordN x.prog.length, wordN x.prog.allow, wordN x.maxStall,
      x.pCorr, x.dCorr], s)
  | none =>
    let (n, s) := s.freshMany 7
    let w (i : Nat) : Word := Config.freeWord (n + i)
    ([w 0 &&& 0x1F07 ||| run, w 1, w 2, w 3, w 4, w 5, w 6], s)

def engStatusCmd : Cmd :=
  { code := 0x0506, check := fun _ m => firstOf [fGroup m, fTail 3 m],
    act := fun m _ s =>
      let g := msgGrp m
      let (l, s) := statusWords g s
      ok m (l ++ [wordN (s.restarts g).length, s.grp[g].evLost]) s }

/-- ENG_CLEAR (R382). -/
def engClearCmd : Cmd :=
  { code := 0x0507, check := fun _ m => firstOf [fGroup m, fTail 3 m],
    act := fun m _ s =>
      let g := msgGrp m
      match s.grp[g].owner with
      | some e => ok m [] ((s.modEng e fun x => { x with sticky := 0, maxStall := 0, pCorr := 0, dCorr := 0 }).modGrp g
          fun y => { y with evLost := 0 })
      | none => deny m eState s }

/-- A LIVE engine that ENG_TEST frees by migration (Table 06.1). -/
def liveTestFail (s : State) (e : EngId) : Option Fail :=
  match s.eng[e].grp with
  | some g =>
    firstOf [need (s.grp[g].owner = some e) (.of eState), need (s.audOf g).isNone (.of eBusy),
      need (migrate g .maintenance s).isSome (.of eResource)]
  | none => some (.of eState)

def testFail (s : State) (e : EngId) : Option Fail :=
  let x := s.eng[e]
  match x.st with
  | .spare => need (x.grp.isNone && !x.testDue) (.of eBusy)
  | .faulted => none
  | .idle => need (!x.retired) (.of eState)
  | .candidate | .test => some (.of eBusy)
  | .live => liveTestFail s e

def engTestCmd : Cmd :=
  { code := 0x0508, check := fun _ m => firstOf [fRange 2 0 32 0 19 m, fTail 3 m],
    act := fun m _ s =>
      let e := fin 20 (mfld 2 0 32 m)
      orElse m (testFail s e) (fun s => ok m [] (atNext (.engTest e) s)) s }

def Verdict.code : Verdict → Nat
  | .running => 0 | .pass => 1 | .fail => 2 | .committed => 3 | .aborted => 4

/-- The report of an audition's measures on a channel (R485). -/
def Audition.report (a : Audition) (c : Fin 12) : List Word :=
  let x := a.meas[c]
  let n := 2 ^ a.window
  let null : Word := if a.crit.null = none then 0x80000000 else levelWord (x.level n 6)
  [wordN a.ran, wordN a.verdict.code, levelWord (x.level n 1), levelWord (x.level n 2), levelWord (x.level n 3),
   levelWord (x.level n 4), null, wordN x.sat, wordN a.events]

def engAudstatusCmd : Cmd :=
  { code := 0x0509, check := fun _ m => firstOf [fGroup m, fRange 3 0 32 0 11 m, fTail 4 m],
    act := fun m _ s => match s.grp[msgGrp m].aud with
      | some a => ok m (a.report (fin 12 (mfld 3 0 32 m))) s
      | none => deny m eState s }

/-! ### TUNE (R150 to R155) -/

/-- Group and offset in W2; bit 31 is reserved but in TUNE_READ. -/
def tuneFields (bank : Bool) (m : Msg) : List (Option Fail) :=
  [fZero 2 4 12 m, fZero 2 30 1 m, if bank then none else fZero 2 31 1 m]

def tuneGrp (m : Msg) : GrpId := fin 16 (mfld 2 0 4 m)
def tuneOff (m : Msg) : Nat := mfld 2 16 14 m

/-- The state checks of a TUNE command on a group: a LIVE owner, the window, and R155 for writes. -/
def State.tuneFail (s : State) (g : GrpId) (off n : Nat) (at_ : Nat × Nat) (write : Bool) : Option Fail :=
  match s.grp[g].owner with
  | none => some (.of eState)
  | some o =>
    firstOf [need (s.eng[o].st = .live) (.of eState), need (off + n ≤ s.eng[o].prog.pwsize) (eRange at_.1 at_.2 0),
      need (!(write && s.tuneClash g)) (.of eState)]

def tuneCount (m : Msg) : Nat := mfld 3 0 32 m

/-- The words of a TUNE_WRITE. -/
def tuneLen (m : Msg) : Nat := if 1 ≤ tuneCount m ∧ tuneCount m ≤ 22 then 4 + (tuneCount m + 1) / 2 else 4

/-- The halves of message words from word 4. -/
def tuneVals (m : Msg) : List Half :=
  ((m.w.toList.drop 4).flatMap fun (w : Word) => [w.truncate 16, (w >>> 16).truncate 16]).take (tuneCount m)

def tuneWriteCmd : Cmd :=
  { code := 0x0601, len := fun m => max 8 (tuneLen m),
    check := fun _ m => firstOf (tuneFields false m ++ [fRange 3 0 32 1 22 m,
      if tuneCount m % 2 = 1 then fZero (tuneLen m - 1) 16 16 m else none, fTail (tuneLen m) m]),
    act := fun m _ s => orElse m (s.tuneFail (tuneGrp m) (tuneOff m) (tuneCount m) (2, 16) true)
      (fun s => ok m [] (tuneWrite (tuneGrp m) (tuneOff m) (tuneVals m) s)) s }

/-- The 16-bit values of an object. -/
def halves : List Byte → List Half
  | a :: b :: l => (b ++ a) :: halves l
  | _ => []

def tuneWritehCmd : Cmd :=
  { code := 0x0602,
    check := fun s m =>
      let h := mfld 4 0 32 m
      let l := s.objBytes h .batch
      firstOf [fGroup m, fRange 3 0 32 0 16383 m, fHandle 4 0 32 m, needObject s h .batch 4 0,
        need (l ≠ [] && l.length % 2 = 0) (eRange 4 0 0), fTail 5 m],
    act := fun m _ s =>
      let l := halves (s.objBytes (mfld 4 0 32 m) .batch)
      orElse m (s.tuneFail (msgGrp m) (mfld 3 0 32 m) l.length (3, 0) true)
        (fun s => ok m [] (tuneWrite (msgGrp m) (mfld 3 0 32 m) l s)) s }

/-- Values two to a word, the first lower. -/
def packHalves : List Half → List Word
  | a :: b :: l => (b ++ a) :: packHalves l
  | [a] => [a.zeroExtend 32]
  | [] => []

def tuneReadCmd : Cmd :=
  { code := 0x0603, check := fun _ m => firstOf (tuneFields true m ++ [fRange 3 0 32 1 26 m, fTail 4 m]),
    act := fun m _ s =>
      orElse m (s.tuneFail (tuneGrp m) (tuneOff m) (tuneCount m) (2, 16) false) (fun s =>
        match s.grp[tuneGrp m].owner with
        | some o =>
          let a := if bit (mword m 2) 31 then s.eng[o].shadowArray else s.eng[o].liveArray
          ok m (packHalves (a.getMany (tuneOff m) (tuneCount m))) s
        | none => s) s }

/-- TUNE_SWAP: with a frame it is answered at once, with the members that have no LIVE owner; without one after its boundary
(R154). -/
def tuneSwapCmd : Cmd :=
  { code := 0x0604, timed := true, kind := fun _ => 1, check := fun _ m => firstOf [fMask 2 16 m, fTail 3 m],
    act := fun m f s =>
      let gs : List GrpId := bitsOf 16 (mword m 2)
      let mask : BitVec 16 := (mword m 2).truncate 16
      orElse m (need (gs.all fun g => !s.tuneClash g) (.of eState)) (fun s => match f with
        | some w => ok m [w, maskOf (gs.filter fun g => match s.grp[g].owner with | some o => s.eng[o].st ≠ .live | none => true)]
            (schedule (.swap mask none) f s)
        | none => schedule (.swap mask (some m)) none (awaitOwn m s)) s }

/-! ### The rows -/

def execEngStart (m : Msg) (s : State) : Out := row engStartCmd "ENG_START" m s
def execEngRemove (m : Msg) (s : State) : Out := row engRemoveCmd "ENG_REMOVE" m s
def execEngAudition (m : Msg) (s : State) : Out := row engAuditionCmd "ENG_AUDITION" m s
def execEngConfirm (m : Msg) (s : State) : Out := row engConfirmCmd "ENG_CONFIRM" m s
def execEngAbort (m : Msg) (s : State) : Out := row engAbortCmd "ENG_ABORT" m s
def execEngStatus (m : Msg) (s : State) : Out := row engStatusCmd "ENG_STATUS" m s
def execEngClear (m : Msg) (s : State) : Out := row engClearCmd "ENG_CLEAR" m s
def execEngTest (m : Msg) (s : State) : Out := row engTestCmd "ENG_TEST" m s
def execEngAudstatus (m : Msg) (s : State) : Out := row engAudstatusCmd "ENG_AUDSTATUS" m s
def execTuneWrite (m : Msg) (s : State) : Out := row tuneWriteCmd "TUNE_WRITE" m s
def execTuneWriteh (m : Msg) (s : State) : Out := row tuneWritehCmd "TUNE_WRITEH" m s
def execTuneRead (m : Msg) (s : State) : Out := row tuneReadCmd "TUNE_READ" m s
def execTuneSwap (m : Msg) (s : State) : Out := row tuneSwapCmd "TUNE_SWAP" m s

end Sys2Proof.Machine
end

