-- ==== Sys2Proof/Machine/HostPort.lean ====
section
/-! DEFINITION. The host port in direct and chain mode, the host register map and the mailbox hardware (13, 19). A row takes
effect only in the mode that the HCHAIN strap selected and while READY is 1 (R343, R346). -/
namespace Sys2Proof.Machine
open Sys2Proof

/-! ### Mailbox hardware -/

/-- The mailbox block of a host word in 0x100 to 0x1FF, and the offset in it (Table 13.7). -/
def mbxBlock (a : Nat) : Fin 8 := fin 8 ((a - 0x100) / 32)
def mbxOff (a : Nat) : Nat := (a - 0x100) % 32

/-- STS of an inbound mailbox (Table 13.8). -/
def Mbi.sts (m : Mbi) : Word :=
  wordN (m.len.toNat + boolN m.go <<< 8 + boolN m.badlen <<< 16 + boolN m.aborted <<< 17 + boolN m.busywr <<< 18)

/-- STS of an outbound mailbox (Table 13.8). -/
def Mbo.sts (m : Mbo) : Word := wordN (m.len.toNat + boolN m.go <<< 8 + boolN m.ackerr <<< 19)

/-- A write to a pending inbound mailbox is discarded (R363). -/
def busyWrite (b : BoxId) (s : State) : State :=
  hostErr s.host.mbi[b].busywr (s.modMbi b fun m => { m with busywr := true })

/-- The mailbox holds a message; a write of the core cycle in which the tunnel placed it still stands: no cycle has passed since the
placement, and it is the first write (R359, log 147). -/
def State.holds (s : State) (b : BoxId) : Bool := s.host.mbi[b].go && s.host.mbi[b].placed ≠ some s.clk.now

/-- A CTL write to an inbound mailbox (R362, R363). -/
def ctlIn (b : BoxId) (v : Word) (s : State) : State :=
  if s.holds b then busyWrite b s
  else if bit v 8 then
    if 8 ≤ fld v 0 5 ∧ fld v 0 5 ≤ 16 then
      s.modMbi b fun m => { m with go := true, len := BitVec.ofNat 5 (fld v 0 5), placed := none }
    else setCfgerr (hostErr s.host.mbi[b].badlen (s.modMbi b fun m => { m with badlen := true }))
  else s

/-- A CTL write to an outbound mailbox (R366). -/
def ctlOut (b : BoxId) (v : Word) (s : State) : State :=
  if bit v 9 then
    if s.host.mbo[b].go then s.modMbo b fun m => { m with go := false }
    else hostErr s.host.mbo[b].ackerr (s.modMbo b fun m => { m with ackerr := true })
  else s

/-- A write to word i of an inbound mailbox (R360, R363). -/
def wordIn (b : BoxId) (i : Fin 16) (v : Word) (s : State) : State :=
  if s.holds b then busyWrite b s else s.modMbi b fun m => { m with w := m.w.set i.val v, placed := none }

/-- A write to STS: W1C (Table 13.8). -/
def stsIn (b : BoxId) (v : Word) (s : State) : State :=
  s.modMbi b fun m => { m with badlen := m.badlen && !bit v 16, aborted := m.aborted && !bit v 17,
                               busywr := m.busywr && !bit v 18 }

def stsOut (b : BoxId) (v : Word) (s : State) : State :=
  s.modMbo b fun m => { m with ackerr := m.ackerr && !bit v 19 }

/-- A read of a mailbox word (Tables 13.8 and 19.7). -/
def mbxRead (a : Nat) (s : State) : Word :=
  let k := mbxBlock a
  let o := mbxOff a
  let b : BoxId := fin 4 k.val
  if k.val < 4 then
    if o < 16 then s.host.mbi[b].w[fin 16 o] else if o = 0x11 then s.host.mbi[b].sts else 0
  else
    if o < 16 then s.host.mbo[b].w[fin 16 o] else if o = 0x11 then s.host.mbo[b].sts else 0

/-- A write to a mailbox word. -/
def mbxWrite (a : Nat) (v : Word) (s : State) : State :=
  let k := mbxBlock a
  let o := mbxOff a
  let b : BoxId := fin 4 k.val
  if k.val < 4 then
    if o < 16 then wordIn b (fin 16 o) v s else if o = 0x10 then ctlIn b v s else if o = 0x11 then stsIn b v s else s
  else
    if o = 0x10 then ctlOut b v s else if o = 0x11 then stsOut b v s else s

/-! ### HOST_RESET -/

/-- What the firmware does at a HOST_RESET: it ends the old session. HOST_SESSION takes a place of its own at the front of the queue. -/
def endSession (discarded : Nat) (lost : Bool) (s : State) : State :=
  let s := ((s.modQ 0 fun _ => []).modQ 1 fun _ => []).modQ 3 fun _ => []
  let s : State := { s with fw.bulkOut := [], fw.outHandle := 0, fw.line := s.fw.line.filter fun x => x.msg.isNone }
  let s := if lost then
      cntSat (cntId 0x0D 0 0) s.fw.loss (satInc s.fw.loss) { s with fw.loss := satInc s.fw.loss, fw.lostHeld := true }
    else s
  s.modQ 2 (mkEvent s 0x8102 [wordN discarded] :: ·)

/-- HCTL.HOST_RESET: the outbound mailboxes clear, and the firmware ends the old session (R369). In the ROM no firmware is there to end
one: the messages that the ROM still has to send stay (log 141). -/
def hostReset (s : State) : State :=
  let n := s.queued 0 + s.fw.q[3].length + boolN s.host.mbo[0].go + boolN s.host.mbo[3].go
  let lost := s.host.mbo[2].go
  let s := { s with host.mbo := vmap (fun (m : Mbo) => { m with w := .replicate 16 0, len := 0, go := false }) s.host.mbo }
  if s.boot.phase = .firmware then endSession n lost s else s

/-! ### The register map -/

/-- What a read of a host word below 0x1000 returns (Table 19.1). -/
def regRead (a : Nat) (s : State) : Word :=
  if a = 0x000 then 0x00A17480
  else if a = 0x001 then s.boot.serial.truncate 32
  else if a = 0x002 then (s.boot.serial >>> 32).truncate 32
  else if a = 0x003 then s.strapsReg
  else if a = 0x004 then s.hstatus
  else if a = 0x006 then s.devstat
  else if a = 0x008 then s.host.intsrc.zeroExtend 32
  else if a = 0x009 then s.host.inten.zeroExtend 32
  else if a = 0x00F then s.host.scratch
  else if a = 0x010 then s.clk.sysCnt.truncate 32
  else if a = 0x011 then s.host.sysHi
  else if a = 0x012 then s.host.tickLat
  else if a = 0x013 then s.host.frameLat
  else if a = 0x014 then s.clkstat
  else if 0x100 ≤ a ∧ a < 0x200 then mbxRead a s
  else 0

/-- A snapshot of SYSCNT_LO loads the three latches (R310, R478). -/
def latchCounters (s : State) : State :=
  { s with host.sysHi := (s.clk.sysCnt >>> 32).truncate 32, host.tickLat := s.clk.tick, host.frameLat := s.clk.frame }

/-- What a taken read of a word does to the state: only SYSCNT_LO has an effect. -/
def regReadEffect (a : Nat) (s : State) : State := if a = 0x010 then latchCounters s else s

/-- A host write to a word below 0x1000, by the access types (R7, R9, R10, R353, R476, R480). -/
def regWrite (a : Nat) (v : Word) (s : State) : State :=
  if a = 0x004 then
    { s with host.badcmd := s.host.badcmd && !bit v 3, host.addrOvr := s.host.addrOvr && !bit v 4,
             host.cfgerr := s.host.cfgerr && !bit v 8 }
  else if a = 0x005 then (if bit v 0 then hostReset s else s)
  else if a = 0x008 then { s with host.intsrc := s.host.intsrc &&& ~~~(v.truncate 6) }
  else if a = 0x009 then { s with host.inten := v.truncate 6 }
  else if a = 0x00F then { s with host.scratch := v }
  else if 0x100 ≤ a ∧ a < 0x200 then mbxWrite a v s
  else s

/-! ### Direct mode (R344 to R352) -/

/-- Words read from a on: the values, and the state after their effects; ADDR_OVR for a word above 0xFFF. -/
def readWords (a : Nat) : Nat → State → List Word × State
  | 0, s => ([], s)
  | n + 1, s =>
    if a < 0x1000 then
      let (l, t) := readWords (a + 1) n (regReadEffect a s)
      (regRead a s :: l, t)
    else
      let (l, t) := readWords (a + 1) n (setAddrOvr s)
      (0 :: l, t)

/-- Words written from a on (R348, R352). -/
def writeWords (a : Nat) : List Word → State → State
  | [], s => s
  | v :: l, s => writeWords (a + 1) l (if a < 0x1000 then regWrite a v s else setAddrOvr s)

/-- The status byte of a frame (R345). -/
def State.statusByte (s : State) : Byte := s.hstatus.truncate 8

/-- The bits that HDO carried. -/
def shiftOut (b : Byte) (l : List Word) (s : State) : State := { s with host.hdo := { statusByte := b, words := l } }

/-- A direct-mode frame that shifts out n words: zeros and no effect while READY is 0 (R346). -/
def directFrame (n : Nat) (f : State → State) (s : State) : State :=
  if s.boot.straps.hchain then s
  else if s.host.ready then f s
  else shiftOut 0 (List.replicate n 0) s

/-- NOP, and an unassigned command code, which sets BADCMD once its 8 clocks are in (R347). -/
def execNop (cmd : Byte) (clocks : Nat) (s : State) : Out :=
  ifWf (wfNop cmd) "NOP" <| .next <|
    directFrame ((clocks - 24) / 32) (fun s =>
      let t := shiftOut s.statusByte (List.replicate ((clocks - 24) / 32) 0) s
      if cmd ≠ 0 ∧ 8 ≤ clocks then setBadcmd t else t) s

/-- WRITE: each word takes effect at its last bit; a partial word writes nothing, but a partial word above 0xFFF sets
ADDR_OVR (R348, R351, R352). -/
def execWrite (addr : Half) (data : List Word) (clocks : Nat) (s : State) : Out :=
  ifWf (wfWrite data clocks) "WRITE" <| .next <|
    directFrame ((clocks - 24) / 32) (fun s =>
      let n := (clocks - 24) / 32
      let t := writeWords addr.toNat (data.take n) (shiftOut s.statusByte (List.replicate n 0) s)
      if (clocks - 24) % 32 ≠ 0 ∧ 0x1000 ≤ addr.toNat + n then setAddrOvr t else t) s

/-- READ: a word is taken at its bit 31, one clock after its snapshot; the look-ahead snapshot that is not taken leaves no
effect (R349 to R352). -/
def execRead (addr : Half) (clocks : Nat) (s : State) : Out :=
  .next <| directFrame ((clocks - 24 + 31) / 32) (fun s =>
    let r := readWords addr.toNat ((clocks - 24 + 31) / 32) s
    shiftOut s.statusByte r.1 r.2) s

/-- STATUS: HSTATUS follows the command byte directly (Table 13.3). -/
def execStatus (clocks : Nat) (s : State) : Out :=
  .next <| directFrame ((clocks - 8 + 31) / 32) (fun s =>
    shiftOut s.statusByte (List.replicate ((clocks - 8 + 31) / 32) s.hstatus) s) s

/-! ### Chain mode (R354 to R357) -/

/-- A response stage (Table 13.6). -/
def chainResp (s : State) (addr : Half) (data : Word) (tag : Byte) : Quad := s.statusByte ++ addr ++ data ++ tag

/-- Execute a complete command stage (R355). -/
def chainExec (stage : Quad) (s : State) : State :=
  let cmd := fld stage 56 8
  let addr : Half := BitVec.ofNat 16 (fld stage 40 16)
  let data : Word := BitVec.ofNat 32 (fld stage 8 32)
  let tag : Byte := stage.truncate 8
  let (d, t) :=
    if cmd = 1 then (if addr.toNat < 0x1000 then (data, regWrite addr.toNat data s) else (0, setAddrOvr s))
    else if cmd = 2 then
      (if addr.toNat < 0x1000 then (regRead addr.toNat s, regReadEffect addr.toNat s) else (0, setAddrOvr s))
    else if cmd = 3 then (s.hstatus, s)
    else if cmd = 0 then (0, s)
    else (0, setBadcmd s)
  { t with host.resp := chainResp t addr d tag }

/-- A stage as it leaves on HDO, in two words. -/
def stageWords (q : Quad) : List Word := [(q >>> 32).truncate 32, q.truncate 32]

/-- What the frame shifts out: the response stage, zeros in a frame that begins with READY = 0, and then the stages of the other devices
as they came on HDI (R346, R354, R357). -/
def chainOut (through : List Quad) (s : State) : State :=
  let l := through.flatMap stageWords
  if !s.host.ready then shiftOut 0 ([0, 0] ++ l) s
  else shiftOut (BitVec.ofNat 8 (fld s.host.resp 56 8))
    ([BitVec.ofNat 32 (fld s.host.resp 24 32), BitVec.ofNat 32 (fld s.host.resp 0 24)] ++ l) s

/-- CHAIN_FRAME_EXECUTE: the stages that pass through, in the order in which they come, and then the device's own (R354, R355, R357). -/
def execChainFrameExecute (through : List Quad) (stage : Quad) (s : State) : Out :=
  .next <|
    if s.boot.straps.hchain then
      if s.host.ready then chainExec stage (chainOut through s) else { chainOut through s with host.resp := 0 }
    else s

/-- CHAIN_FRAME_DISCARD: a frame that is no multiple of 64 clocks, or that ends before a clock came, executes nothing and keeps the
response stage (R356). -/
def execChainFrameDiscard (clocks : Nat) (s : State) : Out :=
  ifWf (wfDiscard clocks) "CHAIN_FRAME_DISCARD" <| .next <| if s.boot.straps.hchain then chainOut [] s else s

/-! ### Single register accesses -/

/-- A write by either master while the host domain is open (R346, R358). -/
def openWrite (f : State → State) (s : State) : State := if s.host.ready then f s else s

/-- SYSCNT_LO: its snapshot loads the three latches (R478). -/
def execSyscntLo (s : State) : Out := .next <| openWrite latchCounters s

/-- GO: a CTL write with GO = 1 and LEN (R362, R363). -/
def execGo (b : BoxId) (len : BitVec 5) (s : State) : Out :=
  .next <| openWrite (ctlIn b (len.zeroExtend 32 ||| 0x100)) s

/-- ACK: a CTL write with ACK = 1 (R366). -/
def execAck (b : BoxId) (s : State) : Out := .next <| openWrite (ctlOut b 0x200) s

/-- HOST_RESET (R369). -/
def execHostReset (s : State) : Out := .next <| openWrite hostReset s

/-- INTEN (R476). -/
def execInten (v : Word) (s : State) : Out := .next <| openWrite (regWrite 0x009 v) s

/-- REGISTER_WRITE: a write of one word (R7, R471); above 0xFFF it sets ADDR_OVR (R352). -/
def execRegisterWrite (addr : Half) (v : Word) (s : State) : Out :=
  .next <| openWrite (fun s => if addr.toNat < 0x1000 then regWrite addr.toNat v s else setAddrOvr s) s

/-- INTSRC_EVENT: a hardware event sets its bit whatever INTEN holds (R476, R477). -/
def execIntsrcEvent (i : Fin 6) (s : State) : Out := .next <| intset i.val s

/-! ### OUTBOUND_SEND -/

/-- Move waiting bulk fragments into the queue of MBO1 while it has room (R370). -/
def pumpBulk (s : State) : State :=
  let n := 32 - s.fw.q[1].length
  let t := s.modQ 1 (· ++ s.fw.bulkOut.take n)
  { t with fw.bulkOut := s.fw.bulkOut.drop n }

/-- The firmware writes W0 to W(LEN−1), then LEN, then GO (R366). -/
def placeOut (b : BoxId) (m : Msg) (s : State) : State :=
  s.modMbo b fun o => { o with w := vof fun i => if i.val < m.len.toNat then m.w[i] else o.w[i], len := m.len, go := true }

/-- The next queued message leaves its queue; an event takes its SEQ, and a held EVT_LOST follows; fragments move up before and after
(R366, R370, R373). -/
def sendNext (b : BoxId) (s : State) : State :=
  let s := if b = 1 then pumpBulk s else s
  match s.fw.q[b] with
  | [] => s
  | m :: r =>
    let s := s.modQ b fun _ => r
    if b = 2 then
      let m := { m with w := m.w.set 0 (m.w[0] ||| (s.fw.evSeq.zeroExtend 32 <<< 16)) }
      let s := placeOut b m { s with fw.evSeq := s.fw.evSeq + 1 }
      if s.fw.lostHeld then
        let s := { s with fw.lostHeld := false }
        s.modQ 2 (· ++ [mkEvent s 0x8D01 [s.fw.loss]])
      else s
    else placeOut b m (if b = 1 then pumpBulk s else s)

/-- Messages move while Capo-H runs (R366, R399). -/
def State.messaging (s : State) : Bool :=
  !s.sup.restarting && (s.boot.phase = .firmware || (s.boot.phase = .rom && (s.host.ready || s.link.tunnelled)))

/-- OUTBOUND_SEND (R366). -/
def execOutboundSend (b : BoxId) (s : State) : Out :=
  .next <| if s.messaging ∧ s.host.mbo[b].go = false then sendNext b s else s

end Sys2Proof.Machine
end

