-- ==== Sys2Proof/Machine/Link.lean ====
section
/-! DEFINITION. The rows of the ridge link: frames, ports, breaks, formation, failover, twins, routes and lane tests (12, 17
R445). -/
namespace Sys2Proof.Machine
open Sys2Proof

/-! ### Timing port and hops (R321, R324) -/

/-- The timing port stays until its TDIST is 255 or it goes down; then the port with the lower TDIST, WEST on a tie. A member whose
ports both carry no path loses RIDGE (R326). -/
def retime (s : State) : State :=
  let e := (s.link.ports[0]).dist
  let w := (s.link.ports[1]).dist
  let cur := if s.link.timingWest then w else e
  let d := if w ≤ e then w else e
  let t : State := { s with link.timingWest := if cur ≠ 255 then s.link.timingWest else decide (w ≤ e),
                            link.tdist := if s.link.active then 0 else if d = 255 then 255 else d + 1 }
  if d = 255 ∧ (s.clk.actSrc = some .ridge ∨ s.clk.qual.contains .ridge) then loseSource .ridge t else t

/-- The frame came on the timing port. -/
def State.timing (s : State) (p : RidgeId) : Bool := if s.link.timingWest then p = 1 else p = 0

/-! ### Frame errors (R318) -/

/-- Count a frame error of a port or SPUR lane. -/
def frameError (p : RidgeId) (lane : Fin 2) (s : State) : State :=
  let l := s.link
  if p = 0 then cntSat (cntId 12 0 0) l.errEast (satInc l.errEast) { s with link.errEast := satInc l.errEast }
  else if p = 1 then cntSat (cntId 12 1 0) l.errWest (satInc l.errWest) { s with link.errWest := satInc l.errWest }
  else if lane = 0 then cntSat (cntId 12 2 0) l.errSpur0 (satInc l.errSpur0) { s with link.errSpur0 := satInc l.errSpur0 }
  else cntSat (cntId 12 3 0) l.errSpur1 (satInc l.errSpur1) { s with link.errSpur1 := satInc l.errSpur1 }

/-! ### Taps (R322) -/

/-- The link code of a frame: 0 ring, 1 and 2 SPUR lanes. -/
def linkCode (f : LinkFrame) : Nat := if f.port = 2 then 1 + f.lane.val else 0

/-- Add a copy to the queue of a tap. -/
def addCopy (n : Word) (west : Bool) (v : Option Word) : List TapCopies → List TapCopies
  | [] => [{ frame := n, east := if west then none else some v, west := if west then some v else none }]
  | c :: l =>
    if c.frame = n then (if west then { c with west := some v } else { c with east := some v }) :: l
    else c :: addCopy n west v l

/-- A tap takes its copy of a frame that holds the owner's bit; frames of SPUR count as the west copy. -/
def tapFrame (f : LinkFrame) (t : Tap) : Tap :=
  if t.link = linkCode f ∧ bit (LinkFrame.passed f) t.owner.val then
    { t with queue := addCopy f.number (decide (f.port ≠ 0)) ((f.audio.find? fun x => x.1 = t.chan).map (·.2)) t.queue }
  else t

def frameTaps (f : LinkFrame) (s : State) : State :=
  if s.link.left then s else { s with link.taps := vmap (fun o => o.map (tapFrame f)) s.link.taps }

/-! ### Control slots -/

/-- An epoch is newer, modulo 16. -/
def newerEpoch (a b : BitVec 4) : Bool := 1 ≤ (a - b).toNat && (a - b).toNat ≤ 7

/-- A frame of a ring port as the watch over the active member counts it: a new HBSEQ, or none; the member's beacon (R333). -/
def RPort.watch (mgr : Nat) (f : LinkFrame) (p : RPort) : RPort :=
  let new := f.ok && f.mgrHere && f.hbSeq ≠ p.hb
  let b := (f.cairn mgr).toNat % 16
  { p with hb := if new then f.hbSeq else p.hb, stale := if new then 0 else min 8 (p.stale + 1),
           quietRun := if f.ok && (b = 4 || 6 ≤ b) then min 8 (p.quietRun + 1) else 0 }

/-- MGR (R333, R334): the active and standby positions; a pair member that finds a newer epoch is standby. -/
def frameMgr (f : LinkFrame) (s : State) : State :=
  let l := s.link
  let newer := s.boot.straps.role = 2 && newerEpoch f.epoch l.epoch
  if !f.mgrHere then s
  else if l.active then
    if newer then
      { s with link.active := false, link.standby := true, link.epoch := f.epoch, link.mgrPos := f.mgrPos,
               link.stbyPos := f.stbyPos, link.paired := f.pair }
    else s
  else
    let mine := match l.pos with | some p => f.pair && f.stbyPos = p.val | none => false
    { s with link.epoch := f.epoch, link.mgrPos := f.mgrPos, link.stbyPos := f.stbyPos, link.paired := f.pair,
             link.standby := s.boot.straps.role = 2 && (mine || l.standby || newer) }

/-- MIRROR: the active member sends the responses that the standby's acknowledgement has freed, in frames that have passed it, and the
standby sets SYNC after one complete refresh with every MSEQ since (R332). -/
def frameMirror (f : LinkFrame) (s : State) : State :=
  let l := s.link
  if l.active then
    if !bit f.passed l.stbyPos then s else
    let ack := f.mirrorAckValid
    let done := s.fw.mirrorWait.takeWhile fun x => !ack || decide ((f.mirrorAck - x.1).toNat < 2048)
    let t : State := { s with link.sync := ack, fw.mirrorWait := s.fw.mirrorWait.drop done.length }
    done.foldl (fun s x => queueReply none x.2 s) t
  else if !l.standby ∨ !f.mgrHere ∨ f.mseq = l.mseq then s
  else if f.mseq = l.mseq + 1 then
    let r := f.refresh || l.refreshing
    { s with link.mseq := f.mseq, link.mirrored := if f.refresh then f.mirrorWords else l.mirrored ++ f.mirrorWords,
             link.refreshing := r && !f.refEnd, link.sync := l.sync || (r && f.refEnd) }
  else { s with link.mseq := f.mseq, link.sync := false, link.refreshing := f.refresh && !f.refEnd,
                link.mirrored := if f.refresh then f.mirrorWords else [] }

/-- A message from the tunnel lands in an inbound mailbox as a host write does, all of it in one core cycle (R336, R358, R359, R363). -/
def placeIn (m : Tunnel) (s : State) : BitVec 2 × State :=
  let b := s.host.mbi[m.mbox]
  if b.go then (1, s)
  else if m.len.toNat < 8 ∨ 16 < m.len.toNat then (2, s)
  else (0, s.modMbi m.mbox fun x => { x with w := m.w, len := m.len, go := true, placed := some s.clk.now })

/-- TDN at the destination, and its acknowledgement at the manager (R336). -/
def frameTdn (f : LinkFrame) (s : State) : State :=
  let t := f.tdn
  let s : State := if f.mgrHere then { s with link.ackLive := t.valid && decide (s.link.pos = some t.dest) } else s
  let s :=
    if t.valid ∧ s.link.pos = some t.dest ∧ !s.link.active then
      match s.link.tunnelAck with
      | some (q, r) =>
        if q = t.tseq ∧ r ≠ 1 then s
        else
          let x := placeIn t s
          { x.2 with link.tunnelAck := some (t.tseq, x.1), link.tunnelled := true }
      | none =>
        let x := placeIn t s
        { x.2 with link.tunnelAck := some (t.tseq, x.1), link.tunnelled := true }
    else s
  match s.link.active, s.link.tunnelOut with
  | true, x :: r =>
    if t.ackValid ∧ t.ackPos = x.1 ∧ t.ackSeq = s.link.tdnSeq ∧ (t.ackRes = 0 ∨ t.ackRes = 2) then
      { s with link.tunnelOut := r, link.tdnSeq := s.link.tdnSeq + 1 }
    else s
  | _, _ => s

/-- A worker's message as the manager hands it to its host: a response goes to MBO0 with FWD and the worker's position (R378), and the
refusal of a scheduled command is reported as E_CANCELLED with that position (R377). -/
def fromWorker (t : Tunnel) : Msg :=
  let no := bit t.w[0] 25 && decide (0x10 ≤ fld t.w[1] 0 16)
  let w := if no then t.w.set 1 (wordN (0x40 + t.dest.val <<< 16)) else t.w
  let reply := t.mbox = 0 ∨ t.mbox = 3
  { box := if reply then 0 else t.mbox, len := t.len,
    w := if reply then w.set 0 (w[0] ||| 0x4000000 ||| BitVec.ofNat 32 (t.dest.val * 2 ^ 27)) else t.w }

/-- A member of a commit group elsewhere has failed or was aborted: the manager's own members are aborted and the commit is cancelled
(R157, R170); a single commit of that device is cancelled too. -/
def memberFailed (d : Fin 32) (g : GrpId) (s : State) : State :=
  match s.link.cg.find? fun x => x.pos = d && x.grp = g with
  | some x => abortGroupNext x.n s
  | none => cancelSched (fun x => x.kind = 2 && x.cgroup = 0 && (x.all || x.target = d.val)) s

/-- Members of commit groups elsewhere that satisfy p are ready, or are members no more. -/
def markReady (p : CgMember → Bool) (s : State) : State :=
  { s with link.cg := s.link.cg.map fun x => if p x then { x with ready := true } else x }
def dropMembers (p : CgMember → Bool) (s : State) : State := { s with link.cg := s.link.cg.filter fun x => !p x }

/-- A worker's event at the manager. -/
def workerEvent (d : Fin 32) (w : Vector Word 16) (s : State) : State :=
  let code := fld w[0] 0 16
  let g : GrpId := fin 16 (fld w[4] 0 4)
  let me (x : CgMember) : Bool := x.pos = d && x.grp = g
  if code = 0x8503 then (if bit w[4] 8 then memberFailed d g s else markReady (fun x => me x && x.auto) s)
  else if code = 0x8505 then memberFailed d g s
  else if code = 0x8504 then dropMembers me s
  else if code = 0x8404 ∧ w[7] = 1 then cancelSched (fun x => x.id = w[4].toNat) s
  else s

/-- A worker's response at the manager: a refusal cancels the schedule of its command on every device (R157), and an ENG_CONFIRM that
was accepted makes a member ready. -/
def workerReply (d : Fin 32) (w : Vector Word 16) (s : State) : State :=
  let k := fld w[0] 0 24
  let me (x : CgMember) : Bool := x.pos = d && x.key = k
  if 16 ≤ fld w[1] 0 16 then
    let t := cancelSched (fun x => x.key = k && x.key ≠ 0) s
    if fld w[0] 0 16 = 0x0503 then dropMembers me t else t
  else if fld w[0] 0 16 = 0x0504 then markReady me s
  else s

/-- Fragments of a program object on MBI1 (R379). -/
def objFragments (obj : List Byte) : List (List Word) :=
  (List.range ((obj.length + 55) / 56)).map fun i =>
    let l := (obj.drop (56 * i)).take 56
    wordN (56 * i) :: (List.range ((l.length + 3) / 4)).map fun j => wordN (le32 l (4 * j))

/-- A module's object follows the handle that its SYS_XFER_OPEN brought. -/
def sendObject (j : Deploy) (s : State) : State :=
  (objFragments j.obj).foldl (fun s ws => sendTunnel j.pos (mkMsg 1 (1 :: ws)) s) s

/-- The ENG_AUDITION of a module whose object has arrived; its candidate is then a member of the commit group. -/
def sendModule (j : Deploy) (h : Nat) (s : State) : State :=
  let w0 := BitVec.ofNat 32 (0x0503 + s.link.jobSeq.toNat * 65536)
  let m : Msg := { j.aud with w := (j.aud.w.set 0 w0).set 2 (j.aud.w[2] ||| wordN (h <<< 8)) }
  let x : CgMember := { n := fin 16 (fld m.w[2] 16 4), pos := j.pos, grp := fin 16 (fld m.w[2] 0 4), auto := true, ready := false,
                        key := fld m.w[0] 0 24 }
  sendKept j.pos m { s with link.jobSeq := s.link.jobSeq + 1, link.cg := s.link.cg ++ [x] }

/-- The next module for each device opens its transfer, one at a time on a device. -/
def openNext (s : State) : State :=
  s.link.jobs.foldl (fun s j =>
    if s.link.jobs.any fun i => i.pos = j.pos && i.opened.isSome then s
    else
      let r := ownCommand 0 0x0105 none [0, wordN j.obj.length] s
      let k := fld r.1.w[0] 0 24
      let one := s.link.jobs.findIdx fun i => i = j
      sendTunnel j.pos r.1 { r.2 with link.jobs := s.link.jobs.set one { j with opened := some k } }) s

/-- A worker's message that answers one of the manager's own transfers: the job goes on, or its graph is given up; none when it is
not such a message. -/
def jobMessage (t : Tunnel) (s : State) : Option State :=
  match s.link.jobs.find? fun j => j.pos = t.dest && j.opened.isSome with
  | none => none
  | some j =>
    let rest (s : State) : State := { s with link.jobs := s.link.jobs.filter fun i => i ≠ j }
    let fail (s : State) : State := abortGroupNext (fin 16 (fld j.aud.w[2] 16 4)) (rest s)
    if t.mbox = 0 ∧ j.opened = some (fld t.w[0] 0 24) ∧ j.handle.isNone then
      if 16 ≤ fld t.w[1] 0 16 then some (fail s)
      else some (sendObject j { s with link.jobs := s.link.jobs.map fun i => if i = j then { j with handle := some t.w[2].toNat } else i })
    else if t.mbox = 2 ∧ fld t.w[0] 0 16 = 0x8107 ∧ j.handle = some t.w[4].toNat then
      if t.w[5] = 0 then some (openNext (sendModule j t.w[4].toNat (rest s))) else some (fail s)
    else none

/-- The manager takes a worker's message; the response to a command of its own goes no further. -/
def takeUp (t : Tunnel) (s : State) : State :=
  match jobMessage t s with
  | some s => s
  | none =>
    let m := fromWorker t
    let k := (t.dest, fld t.w[0] 0 24)
    if t.mbox = 0 ∨ t.mbox = 3 then
      let u := workerReply t.dest t.w s
      if s.link.ownKeys.contains k then { u with link.ownKeys := u.link.ownKeys.erase k } else queueReply (some t.dest) m u
    else if t.mbox = 2 then queueEvent m (workerEvent t.dest t.w s)
    else s.modQ t.mbox (· ++ [m])

/-- The manager has room for a worker's message; a message for a full queue is not taken, so it comes again. An event always is: one that
finds no room is lost (R337, R370). -/
def State.takesUp (s : State) (t : Tunnel) : Bool :=
  t.mbox = 2 || decide (s.queued (fromWorker t).box < 32)

/-- TUP (R337): the manager takes a message once and owes its acknowledgement where it came from; a worker's acknowledged message leaves its
mailbox, and the next waits for a frame. -/
def frameTup (f : LinkFrame) (s : State) : State :=
  let t := f.tup
  let k := (t.dest, t.tseq)
  if s.link.active then
    if t.valid ∧ (s.link.tupSeen.contains k ∨ s.takesUp t) then
      let u := if s.link.tupSeen.contains k then s
        else takeUp t { s with link.tupSeen := k :: s.link.tupSeen.filter fun x => x.1 ≠ t.dest }
      { u with link.tupAck := u.link.tupAck.set (fin 2 f.port.val).val (some k) }
    else s
  else if !s.link.tunnelled then s
  else
    let s := match s.link.tup with
      | some b =>
        if t.ackValid ∧ s.link.pos = some t.ackPos ∧ t.ackSeq = s.link.tupSeq then
          ctlOut b 0x200 { s with link.tup := none, link.tupSeq := s.link.tupSeq + 1 }
        else s
      | none => s
    if s.link.tup = none then { s with link.tup := (idx 4).find? fun b => s.host.mbo[b].go } else s

/-- A cancel: the changes that wait for the schedule are not made; one that was made already is reported (R157). -/
def frameCancel (f : LinkFrame) (s : State) : State :=
  let hit (e : Sched) : Bool := match e.due with | .frame _ id => id = some f.schedId | _ => false
  if s.fw.sched.any hit then cancelWhere hit s
  else match s.fw.made.find? fun x => x.1 = f.schedId && x.2.2 = f.schedF with
    | some x => raise 0x8404 [wordN x.1, wordN x.2.1, f.schedF, 4, 0] { s with fw.made := s.fw.made.filter fun y => y ≠ x }
    | none => s

/-- A frame sync for SYNCSRC FRAME (R297). -/
def frameSyncAt (f : LinkFrame) (s : State) : State :=
  match s.clk.syncByFrame, s.clk.syncFrame with
  | true, some (k, _) =>
    if k ≠ f.schedF then s
    else if (k - s.clk.frame).toInt < 16 then
      raise 0x8404 [wordN f.schedId, 6, k, 1, 0] { s with clk.syncFrame := none }
    else { s with clk.syncFrame := some (k, f.schedId) }
  | _, _ => s

/-- Ready commit groups for which no frame is known. -/
def State.openGroups (s : State) : List (Fin 16) := (idx 16).filter fun n => n ≠ 0 && s.cgroupReady n && !s.framed n

/-- The schedule identifier reaches the changes that wait for the frame, and ready commit groups take the frame of a commit; a device
that receives it too late refuses them (R156, R170, log 131). -/
def frameSched (f : LinkFrame) (s : State) : State :=
  let k := f.kind
  let mine := s.link.pos.isSome && (f.all || s.link.pos = some f.target)
  if k = 0 ∨ 7 ≤ k ∨ !mine ∨ s.link.active then s
  else if k = 4 then frameCancel f s
  else if k = 6 then frameSyncAt f s
  else
    let hit (e : Sched) : Bool := match e.due with | .frame x _ => x = f.schedF && e.change.kind = k | _ => false
    let groups := if k = 2 ∧ !s.fw.sched.any hit then s.openGroups else []
    if !s.fw.sched.any hit ∧ groups = [] then s
    else if s.fw.sched.any fun e => hit e && e.due = .frame f.schedF (some f.schedId) then s
    else if (f.schedF - s.clk.frame).toInt < 16 then
      raise 0x8404 [wordN f.schedId, wordN k, f.schedF, 1, 0]
        { s with fw.sched := s.fw.sched.filter fun e => !hit e }
    else
      { s with fw.sched := (s.fw.sched.map fun e => if hit e then { e with due := .frame f.schedF (some f.schedId) } else e)
          ++ groups.map fun n => { due := .frame f.schedF (some f.schedId), change := .commitGroup n } }

/-- The counter sync (R306, R324), against the counter that this device holds or is about to; and the frame number that a device adopts
before it is a member. -/
def frameCounter (f : LinkFrame) (s : State) : State :=
  let src : RefSrc := if f.port = 2 then .spur else .ridge
  let s := if !s.link.joined ∧ s.clk.actSrc = some .ridge ∧ !s.clk.hold then { s with clk.frame := f.number } else s
  if s.clk.actSrc = some src ∧ !s.clk.hold ∧ s.clk.realign = .none ∧ s.clk.frame = f.number ∧ s.mayStep src then
    { s with clk.cntPend := (f.counter - (s.clk.sysCnt - BitVec.ofNat 64 (s.clk.sysHold + s.clk.cyc))).toInt }
  else s

/-- The sink tap of an admitted route here. -/
def State.sinkTap (s : State) (m : AdmitMsg) : Option (Fin 128) :=
  match s.link.pos with
  | some p => if m.tapPos.toNat = p.val ∧ m.tapSeg = s.link.segid then some (fin 128 m.tap.toNat) else none
  | none => none

/-- Taps of a route. -/
def routeTaps (id : Nat) (f : Fin 128 → State → State) (s : State) : State :=
  forIdx 128 (fun i s => match s.link.taps[i] with
    | some t => if t.route = some id then f i s else s
    | none => s) s

/-- A restored route: its sinks fade in over 64 samples (R342). -/
def restoreSinks (id : Nat) (s : State) : State :=
  routeTaps id (fun i s => raise 0x8801 [wordN i.val, 2] (modTap i (fun t => { t with fade := t.fade.move 1 (1/64) }) s))
    { s with link.routes := s.link.routes.map fun r => if r.id = id then { r with broken := false } else r }

/-! ### Admission (R341, R386) -/

/-- The links of a route: segment, link code, position of the sender, in order from the source. The device that holds a segment's SPUR lanes is
taken to be at position 0, in the own segment this one (log 90). -/
def routeLinks (hold : Nat → Nat) (srcPos srcSeg tapPos tapSeg : Nat) : List (Nat × Nat × Nat) :=
  if srcSeg = tapSeg then [(srcSeg, 0, srcPos)]
  else
    (if srcPos = hold srcSeg then [] else [(srcSeg, 0, srcPos)])
    ++ (if srcSeg < tapSeg then (List.range (tapSeg - srcSeg)).map fun i => (srcSeg + i, 2, hold (srcSeg + i))
        else (List.range (srcSeg - tapSeg)).map fun i => (srcSeg - i, 1, hold (srcSeg - i)))
    ++ (if tapPos = hold tapSeg then [] else [(tapSeg, 0, hold tapSeg)])

/-- The position that holds the SPUR lanes of a segment. -/
def State.spurHolder (s : State) (seg : Nat) : Nat := if seg = s.link.segid.toNat then s.posField else 0

/-- An element word of Table 14.12. -/
def elemWord (chan link pos seg : Nat) (bridge : Bool) : Word :=
  wordN (chan + link <<< 12 + pos <<< 16 + seg <<< 24 + boolN bridge <<< 31)

/-- The channel of an element is in use on its link: by a route, or as far as this device knows by a grant, a graph or a transmit column. -/
def State.chanUsed (s : State) (seg link chan : Nat) : Bool :=
  (s.link.routes.any fun r => r.elems.any fun w =>
    fld w 0 12 = chan && fld w 12 2 = link && fld w 24 3 = seg && !bit w 31)
  || (seg = s.link.segid.toNat && ((link = 0 && s.link.grants.any fun g => g.2 = chan) || s.link.tx.toList.contains (some (link, chan))))

/-- The route channels that a source's own channel meets: only those of other routes. -/
def State.sourceUsed (s : State) (seg chan : Nat) : Bool :=
  s.link.routes.any fun r => r.elems.any fun w => fld w 0 12 = chan && fld w 12 2 = 0 && fld w 24 3 = seg && !bit w 31

/-- Elements with the lowest free channels, and between links the bridge of the device that sends on: its row takes the channel before, its
column feeds the channel after. None when a link has no free channel. -/
def State.routeElems (s : State) (first : Option Nat) : List (Nat × Nat × Nat) → Option (List Word)
  | [] => some []
  | (seg, link, pos) :: l =>
    let c := match first with
      | some c => if s.sourceUsed seg c then none else some c
      | none => (List.range (s.linkChannels link)).find? fun c => !s.chanUsed seg link c
    match c, s.routeElems none l with
    | some c, some r =>
      some (elemWord c link pos seg false :: (match l with
        | [] => r
        | (seg', link', pos') :: _ => elemWord c link' pos' seg' true :: r))
    | _, _ => none

/-- A segment is in the summit's consist: its own, any where the summit has no credential, or one whose manager has passed its test (R419). -/
def State.inConsist (s : State) (seg : Nat) : Bool :=
  seg = s.link.segid.toNat || s.boot.cred.isNone || bit s.link.vetted seg

/-- The summit's answer to a request: the route, or none for a refusal. -/
def State.admits (s : State) (srcChan srcPos srcSeg tap tapPos tapSeg bound : Nat) : Option Route :=
  let links := routeLinks s.spurHolder srcPos srcSeg tapPos tapSeg
  let lat := links.length * s.tapDelay + (links.length - 1)
  match s.routeElems (if srcPos = s.spurHolder srcSeg ∧ srcSeg ≠ tapSeg then none else some srcChan) links with
  | some e =>
    if lat ≤ bound ∧ e.length ≤ 10 ∧ s.inConsist srcSeg ∧ s.inConsist tapSeg then
      some { id := s.link.nextRoute % 4096, src := wordN (srcChan + srcPos <<< 16 + srcSeg <<< 24),
             sink := wordN (tap + tapPos <<< 16 + tapSeg <<< 24), bound := bound, lat := lat, elems := e, broken := false }
    else none
  | none => none

/-- The messages of a route. -/
def State.routeMsg (s : State) (kind : BitVec 4) (r : Route) : AdmitMsg :=
  { s.admitMsg kind r.id with
    srcChan := BitVec.ofNat 12 (fld r.src 0 12), srcPos := BitVec.ofNat 5 (fld r.src 16 5), srcSeg := BitVec.ofNat 3 (fld r.src 24 3),
    tap := BitVec.ofNat 7 (fld r.sink 0 7), tapPos := BitVec.ofNat 5 (fld r.sink 16 5), tapSeg := BitVec.ofNat 3 (fld r.sink 24 3),
    bound := BitVec.ofNat 16 r.bound, lat := BitVec.ofNat 16 r.lat, elems := r.elems }

/-- The tap that takes the samples of an element: a ring channel of the sender, or the SPUR lane that faces the sender's (R339). -/
def elemTap (id : Nat) (w : Word) : Tap :=
  let k := fld w 12 2
  { Tap.start (if k = 0 then 0 else 3 - k) (fld w 0 12) (fin 32 (fld w 16 5)) (BitVec.ofNat 3 (fld w 24 3)) with route := some id }

/-- The sink of a route is here: its tap takes the channel of the last element and belongs to the route (R341). -/
def bindSink (m : AdmitMsg) (s : State) : State :=
  match s.sinkTap m, m.elems.getLast? with
  | some i, some w =>
    let t := elemTap m.route.toNat w
    match s.link.taps[i] with
    | some u =>
      if u.link = t.link ∧ u.chan = t.chan ∧ u.owner = t.owner ∧ u.segid = t.segid then setTap i (some { u with route := t.route }) s
      else setTap i (some t) s
    | none => setTap i (some t) s
  | _, _ => s

/-- A crosspoint of a bridge: at unity, or at zero. -/
def bridgeXp (i : Fin 128) (j : Fin 64) (v : Int) : BatchEntry := { kind := 0, row := 160 + i.val, col := 64 + j.val, val := v }

/-- A bridge of a route here: the lowest free tap takes the channel before, the lowest free column sends the channel after, and the crosspoint
between them is at unity (R341, log 90). -/
def setBridge (id : Nat) (before after : Word) (s : State) : State :=
  match (idx 128).find? fun i => s.link.taps[i].isNone, (idx 64).find? fun j => s.link.tx[j].isNone with
  | some i, some j =>
    let s := setTx j (some (fld after 12 2, fld after 0 12)) (setTap i (some (elemTap id before)) s)
    batch [bridgeXp i j 16384] { s with link.bridges := s.link.bridges ++ [{ route := id, tap := i, tx := j }] }
  | _, _ => s

/-- The bridges of a route that are here: an element, a bridging element and the one after it. -/
def setBridges (id : Nat) : List Word → State → State
  | a :: b :: c :: l, s =>
    let s := if bit b 31 && fld b 24 3 = s.link.segid.toNat && s.isPos (fld b 16 5) then setBridge id a c s else s
    setBridges id (b :: c :: l) s
  | _, s => s

/-- The bridges of a route are taken away. -/
def dropBridges (id : Nat) (s : State) : State :=
  let l := s.link.bridges.filter fun b => b.route = id
  l.foldl (fun s b => batch [bridgeXp b.tap b.tx 0] (setTx b.tx none (setTap b.tap none s)))
    { s with link.bridges := s.link.bridges.filter fun b => b.route ≠ id }

/-- The route that a grant names. -/
def routeOf (m : AdmitMsg) : Route :=
  { id := m.route.toNat, src := wordN (m.srcChan.toNat + m.srcPos.toNat <<< 16 + m.srcSeg.toNat <<< 24),
    sink := wordN (m.tap.toNat + m.tapPos.toNat <<< 16 + m.tapSeg.toNat <<< 24), bound := m.bound.toNat, lat := m.lat.toNat,
    elems := m.elems.take 10, broken := false }

/-- The part of a granted route that is here: its sink and its bridges, once. -/
def bindRoute (m : AdmitMsg) (s : State) : State :=
  if s.link.bridges.any fun b => b.route = m.route.toNat then bindSink m s
  else setBridges m.route.toNat m.elems (bindSink m s)

/-- A granted route that passes this device is kept, and its parts here are set. -/
def keepRoute (m : AdmitMsg) (s : State) : State :=
  let r := routeOf m
  let s := bindRoute m s
  if (r.here s.link.segid s.isPos).isSome then
    { s with link.routes := (s.link.routes.filter fun x => x.id ≠ r.id) ++ [r] }
  else s

/-- The summit admits a route: it is listed and granted. -/
def grantRoute (r : Route) (s : State) : State :=
  let m := s.routeMsg 2 r
  bindRoute m (sendAdmit m { s with link.routes := s.link.routes ++ [r], link.nextRoute := (s.link.nextRoute + 1) % 4096 })

/-- The summit releases a route. -/
def releaseRoute (id : Nat) (s : State) : State :=
  let s := routeTaps id (fun i s => modTap i (fun t => { t with route := none }) s) (dropBridges id s)
  { s with link.routes := s.link.routes.filter fun r => r.id ≠ id }

/-- The request of a LINK_ADMIT (Table 14.12); its route has no identifier yet. -/
def State.askMsg (s : State) (m : Msg) : AdmitMsg :=
  let f (w lo n : Nat) : Nat := fld (mword m w) lo n
  { s.admitMsg 1 0 with
    srcChan := BitVec.ofNat 12 (f 2 0 12), srcPos := BitVec.ofNat 5 (f 2 16 5), srcSeg := BitVec.ofNat 3 (f 2 24 3),
    tap := BitVec.ofNat 7 (f 3 0 7), tapPos := BitVec.ofNat 5 (f 3 16 5), tapSeg := BitVec.ofNat 3 (f 3 24 3),
    bound := BitVec.ofNat 16 (f 4 0 32) }

/-- A grant or refusal answers a request of this device's host (R386). -/
def State.answers (s : State) (a : AdmitMsg) (m : Msg) : Bool :=
  let q := s.askMsg m
  q.srcChan = a.srcChan && q.srcPos = a.srcPos && q.srcSeg = a.srcSeg && q.tap = a.tap && q.tapPos = a.tapPos && q.tapSeg = a.tapSeg

/-- The host's request is answered: the route and its latency, or E_RESOURCE. -/
def askDone (a : AdmitMsg) (s : State) : State :=
  match s.link.asks.find? (s.answers a) with
  | some m =>
    let s : State := { s with link.asks := s.link.asks.erase m }
    if a.kind = 2 then respond m 0 0 [a.route.zeroExtend 32, a.lat.zeroExtend 32] s else queueReply none (answer m 0x22 0 []) s
  | none => s

/-- What an admission message does here. -/
def admitEffect (m : AdmitMsg) (s : State) : State :=
  let id := m.route.toNat
  if m.kind = 1 then
    if s.summit then
      match s.admits m.srcChan.toNat m.srcPos.toNat m.srcSeg.toNat m.tap.toNat m.tapPos.toNat m.tapSeg.toNat m.bound.toNat with
      | some r => grantRoute r s
      | none => sendAdmit { m with kind := 3, segid := s.link.segid, pos := BitVec.ofNat 5 s.posField } s
    else s
  else if m.kind = 2 then (if s.summit then s else askDone m (keepRoute m s))
  else if m.kind = 3 then (if s.summit then s else askDone m s)
  else if m.kind = 4 then
    routeTaps id tapFade (if s.summit then breakRoute id m.broken.toNat s
      else { s with link.routes := s.link.routes.map fun r => if r.id = id then { r with broken := true } else r })
  else if m.kind = 5 then releaseRoute id s
  else if m.kind = 6 then restoreSinks id s
  else s

/-- The device takes admission messages for its segment: the active manager, and the pair member that holds a SPUR lane (R339). -/
def State.takesAdmit (s : State) : Bool := s.managerRole && (s.link.active || (s.link.ports[2]).lanes.toList.any id)

/-- The message has another sender, and no frame of another port still repeats it. -/
def State.newAdmit (s : State) (m : AdmitMsg) : Bool :=
  !(m.segid = s.link.segid && s.isPos m.pos.toNat) && !s.link.admitSeen.toList.contains (some m)

/-- A valid admission message of an assigned KIND (R386). -/
def AdmitMsg.known (m : AdmitMsg) : Bool := m.valid && decide (1 ≤ m.kind.toNat ∧ m.kind.toNat ≤ 6)

/-- The admission message of a frame: managers acknowledge it, and all but the summit pass it on along the chain and the ring (R339, R386,
log 91). -/
def frameAdmit (f : LinkFrame) (s : State) : State :=
  let m := f.admission
  let i : Fin 4 := if f.port = 2 then (if f.lane = 0 then 2 else 3) else if f.port = 0 then 0 else 1
  let new := m.known && s.newAdmit m
  let s : State := { s with link.admitSeen := s.link.admitSeen.set i.val (if m.known then some m else none),
                            link.admitAck := if m.known && s.takesAdmit then some m.route else none }
  let s := if new then admitEffect m s else s
  let s := if new && s.takesAdmit && !s.summit then sendAdmit m s else s
  if f.admitAck.isSome ∧ f.admitAck = s.link.admitOut.head?.map (fun (m : AdmitMsg) => m.route) then
    { s with link.admitOut := s.link.admitOut.drop 1 }
  else s

/-! ### SPUR (R339, R340, R419) -/

/-- The answer to a challenge: HMAC-SHA-384 keyed with the credential (R419). -/
def credAnswer (cred : BitVec 384) (challenge : BitVec 256) (serial : Quad) : BitVec 384 :=
  Config.hmac (keyBytes cred) (bytesBE 32 challenge.toNat ++ serialBytes serial)

/-- The beacons of a SPUR frame: of the segments toward the summit on lane 0, of those away from it on lane 1. -/
def State.segsFrom (s : State) (f : LinkFrame) : Vector Word 8 :=
  vof fun k => if (f.lane = 0 ∧ k.val < s.link.segid.toNat) ∨ (f.lane = 1 ∧ s.link.segid.toNat < k.val) then f.cairn k.val
    else s.link.segs[k]

/-- A segment joins the consist through an active manager that holds lane 0, has SPUR first in REFORDER and follows it (R340). -/
def State.joinsConsist (s : State) : Bool :=
  s.managerRole && s.link.active && (s.link.ports[2]).lanes[0] && s.clk.refOrder.head? = some .spur && s.clk.actSrc = some .spur && !s.clk.hold

/-- The test of a join answers right under this device's credential (R419). -/
def State.joinAnswered (s : State) (t : JoinTest) : Bool := match s.boot.cred with
  | some k => decide (t.answer = credAnswer k t.challenge t.serial)
  | none => false

/-- What a valid SPUR frame says of the chain. A manager that joins answers the summit's test; the summit keeps who has passed it. -/
def frameSpur (f : LinkFrame) (s : State) : State :=
  let s : State := { s with
    link.segs := s.segsFrom f, link.spurSeg := if f.lane = 0 then some f.segid else s.link.spurSeg,
    link.vetted := match (if s.summit then f.joins else none) with
      | some t => if s.joinAnswered t then s.link.vetted ||| BitVec.ofNat 8 (2 ^ t.segid.toNat)
        else s.link.vetted &&& ~~~ BitVec.ofNat 8 (2 ^ t.segid.toNat)
      | none => s.link.vetted }
  { s with link.consist := s.link.consist || (s.joinsConsist && f.joins.all s.joinAnswered) }

/-! ### RIDGE_FRAME -/

/-- The device has sent frame n of a direction as its origin. -/
def State.sentOwn (s : State) (dir : Fin 4) (n : Word) : Bool := (s.link.sent[dir]).orig && (s.link.sent[dir]).frame = n

/-- A frame that comes in for a direction ends here: it is this device's own; or the device has originated that number already, and the frame
has an error or comes from a higher position, so that of two origins the lower stays (R320, log 92). -/
def State.endsHere (s : State) (f : LinkFrame) (dir : Fin 4) (n : Word) : Bool :=
  if f.ok && f.origin.val = s.originPos then true
  else s.sentOwn dir n && (!f.ok || decide (s.originPos < f.origin.val))

/-- A ring frame is terminated by its origin and before a break, or forwarded, and no frame number is both originated and forwarded. A device at
which a frame ended originates the next; one that meets the frame of another origin forwards from the next on (R320, R321, R325). -/
def frameForward (f : LinkFrame) (s : State) : State :=
  if !s.member ∨ f.port = 2 then s
  else
    let east := decide (f.port = 1)
    let dir : Fin 4 := if east then 0 else 1
    let n := if f.ok then f.number else s.clk.frame
    let ends := s.endsHere f dir n
    let o : Origin := if ends then .due else .no
    let s : State := if east then { s with link.originE := o } else { s with link.originW := o }
    let out : RidgeId := if east then 0 else 1
    if ends || s.sentOwn dir n || (s.link.ports[out]).broken then s else transmit dir n (some f) s

/-- The control slots of a valid frame. -/
def frameControl (f : LinkFrame) (s : State) : State :=
  let s := s.modRPort f.port fun p => { p with tdist := f.tdist, number := f.number, passed := f.passed, delay := f.delay }
  let s := frameAdmit f s
  if f.port = 2 then
    let s := frameSpur f s
    if f.lane = 0 then frameCounter f s else s
  else
    let s := retime { s with link.members := s.link.members.map fun m => { m with beacon := f.cairn m.pos } }
    let s := frameTup f (frameTdn f (frameMirror f (frameMgr f s)))
    if s.timing f.port then frameCounter f (frameSched f s) else s

/-- The lanes of a port hear sync headers; of SPUR one lane does. -/
def hear (p : RidgeId) (lane : Fin 2) (h : Vector (List (BitVec 2)) 2) (s : State) : State :=
  let n := s.frameBlocks
  s.modRPort p fun x => { x with rx := vof fun l => if p = 2 ∧ l ≠ lane then x.rx[l] else (x.rx[l]).feed n h[if p = 2 then 0 else l] }

/-- The port, or the SPUR lane, holds the locks that it needs to be up (R315). -/
def State.portLocked (s : State) (p : RidgeId) (lane : Fin 2) : Bool :=
  let x := s.link.ports[p]
  if p = 2 then (x.rx[lane]).frame else x.aligned s.frameBlocks

/-- A port, or a SPUR lane, is down. -/
def downPort (p : RidgeId) (lane : Fin 2) (s : State) : State :=
  let x := s.link.ports[p]
  if p = 2 then
    if x.lanes[lane] then
      raise 0x8802 [2, 0] (s.modRPort 2 fun x => { x with lanes := x.lanes.set lane.val false, up := false })
    else s
  else if x.up then
    retime (raise 0x8802 [wordN p.val, 0] (s.modRPort p fun x => { x with up := false, lanes := .replicate 2 false, tdist := 255 }))
  else s

/-- A port that has lost its locks goes down. -/
def checkLock (was : Bool) (p : RidgeId) (lane : Fin 2) (s : State) : State :=
  if was && !s.portLocked p lane then downPort p lane s else s

/-- RIDGE_FRAME (R316 to R324): what the frame brings, then whether the lanes still hold their locks. -/
def execRidgeFrame (r : RxLink) (s : State) : Out :=
  done <|
    let f := RxLink.frame r
    let p := s.link.ports[f.port]
    let up := if f.port = 2 then s.managerRole && p.lanes[f.lane] else p.up
    if s.standalone ∨ !up then s
    else
      let t := if f.port = 2 then s else s.modRPort f.port (RPort.watch s.link.mgrPos f)
      let t := if f.ok then frameForward f (frameTaps f (frameControl f t)) else frameForward f (frameError f.port f.lane t)
      checkLock (s.portLocked r.port r.lane) r.port r.lane (hear r.port r.lane (vmap (fun l => l.map (·.1)) r.blocks) t)

/-! ### Ports and breaks (R313, R315, R325 to R327) -/

/-- PORT_DOWN: the sync headers that a lane has received end its locks. -/
def execPortDown (p : RidgeId) (lane : Fin 2) (h : Vector (List (BitVec 2)) 2) (s : State) : Out :=
  done <| if s.standalone then s else
    let t := hear p lane h s
    if t.portLocked p lane then t else downPort p lane t

/-- A ring port comes up; a device that had taken its loss as a break stays an origin (R320). -/
def upPort (p : RidgeId) (s : State) : State :=
  let b := (s.link.ports[p]).broken
  raise 0x8802 [wordN p.val, 1] ({ s with link.originE := if b && p = 1 then .held else s.link.originE,
                                                   link.originW := if b && p = 0 then .held else s.link.originW }.modRPort p
    fun x => { x with up := true, lanes := .replicate 2 true, broken := false, loopback := none, stale := 0, quietRun := 0 })

/-- PORT_UP: the sync headers have brought the locks; not while a module's loss of signal or a lane test holds the port down. -/
def execPortUp (p : RidgeId) (lane : Fin 2) (h : Vector (List (BitVec 2)) 2) (s : State) : Out :=
  done <| if s.standalone then s else
    let s := hear p lane h s
    let x := s.link.ports[p]
    if !s.portLocked p lane ∨ x.los ∨ x.prbs.isSome then s
    else if p = 2 then
      if !s.managerRole ∨ x.lanes[lane] then s
      else raise 0x8802 [2, 1] (s.modRPort 2 fun x =>
        { x with lanes := x.lanes.set lane.val true, up := x.lanes[fin 2 (1 - lane.val)] })
    else if x.up then s
    else upPort p s

/-- RING_BREAK: the device originates away from the break from this boundary (R320, R325). -/
def execRingBreak (p : RidgeId) (s : State) : Out :=
  done <|
    if s.standalone ∨ p = 2 ∨ (s.link.ports[p]).up then s
    else
      let s := s.modRPort p fun x => { x with broken := true }
      if !s.member then s
      else if p = 1 then transmit 0 s.clk.frame none { s with link.originE := .held }
      else transmit 1 s.clk.frame none { s with link.originW := .held }

/-- REJOIN: a device whose tick follows RIDGE and is aligned forwards from the next frame (R303, R327). -/
def execRejoin (s : State) : Out :=
  done <|
    let aligned : Bool := match s.clk.realign with | .none | .fadeIn _ _ => true | _ => false
    if !s.standalone ∧ s.clk.actSrc = some .ridge ∧ !s.clk.hold ∧ aligned then
      { s with link.joined := true, link.left := false }
    else s

/-- MODULE_LOSS_OF_SIGNAL on the GPIO that LINK_CFG named (R313). -/
def execModuleLossOfSignal (p : RidgeId) (asserted : Bool) (s : State) : Out :=
  done <|
    if s.standalone ∨ (s.link.ports[p]).losGpio.isNone then s
    else
      let s := s.modRPort p fun x => { x with los := asserted }
      if asserted then downPort p 0 (if p = 2 then downPort p 1 s else s) else s

/-- PRBS_DETECT: the neighbour's pattern is looped back at the receiver (R445). -/
def execPrbsDetect (p : RidgeId) (lane : Fin 2) (s : State) : Out :=
  .next <| if s.standalone ∨ p = 2 ∨ (s.link.ports[p]).up then s else s.modRPort p fun x => { x with loopback := some lane }

/-! ### Formation (R27, R328, R329, R419) -/

/-- The device that R27 prefers among the members of a pair. -/
def preferPair (a b : RingDev) : RingDev :=
  if a.pairId ≠ b.pairId then (if a.pairId then a else b) else if a.serial ≤ b.serial then a else b

/-- The manager that numbers the devices. -/
def formManager (devs : List RingDev) : Option RingDev :=
  match devs.find? fun d => d.role = 1 with
  | some d => some d
  | none => match devs.filter fun d => d.role = 2 with
    | [a] => some a
    | a :: b :: _ => some (preferPair a b)
    | [] => none

/-- The links of a ring and 400 ns for each device keep within 18.0 µs (R313). -/
def budgetOk (hz : Nat) (devs : List RingDev) : Bool :=
  decide (devs.foldl (fun n d => n + d.delay) 0 * 1000000000 + 400 * devs.length * hz ≤ 18000 * hz)

/-- The row of Table 12.5 that stops a formation. -/
def formConflict (hz : Nat) (devs : List RingDev) : Option Nat :=
  let m := countIf (fun (d : RingDev) => d.role = 1) devs
  let p := countIf (fun (d : RingDev) => d.role = 2) devs
  if 32 < devs.length then some 1
  else if 2 ≤ m ∨ (1 ≤ m ∧ 1 ≤ p) ∨ 3 ≤ p then some 2
  else if !budgetOk hz devs then some 6
  else none

/-- The ring in order from a device eastward. -/
def ringFrom (d : RingDev) (devs : List RingDev) : List RingDev :=
  (devs.dropWhile fun x => x.serial ≠ d.serial) ++ devs.takeWhile fun x => x.serial ≠ d.serial

/-- The lowest position that is not taken. -/
def freePos (l : List Member) : Nat := ((List.range 32).find? fun p => !l.any fun m => m.pos = p).getD 32

/-- Positions stay with serial numbers; a new device takes the lowest free one. -/
def addMembers (l : List Member) : List RingDev → List Member
  | [] => l
  | d :: r =>
    if l.any fun m => m.serial = d.serial then addMembers (l.map fun m => if m.serial = d.serial then { m with free := d.free } else m) r
    else addMembers (l ++ [{ pos := freePos l, serial := d.serial, beacon := 0, free := d.free }]) r

/-- The two members of a pair lie next to each other on the ring. -/
def adjacentPair (ring : List RingDev) : Bool :=
  let l := (List.range ring.length).filter fun i => match ring[i]? with | some d => d.role = 2 | none => false
  match l with
  | [i, j] => j = i + 1 || (i = 0 && j + 1 = ring.length)
  | _ => false

/-- The device gets a position: on the manager when it needs no test or has answered the challenge; elsewhere as the manager says, and this
device itself not when it is asked and cannot answer (R419). -/
def State.positions (s : State) (mgr d : RingDev) : Bool :=
  if d.serial = mgr.serial then true
  else if s.boot.serial = mgr.serial then
    match s.boot.cred, d.asked with
    | none, _ => true
    | some k, some (ch, a) => decide (a = credAnswer k ch d.serial)
    | some _, none => false
  else d.placed && !(d.serial = s.boot.serial && d.asked.isSome && s.boot.cred.isNone)

/-- The segment forms: positions from the manager eastward, the active and the standby member, the SEGID, and the segment's counter
value at a frame (R328). The active manager originates in both directions (R320), and takes no reference from its own ring (R324); the summit's
segment is 0, one that hears another on SPUR lane 0 is the next in the chain (R339). When the segment forms anew every tap selects eastbound
(R322). -/
def formSegment (mgr : RingDev) (devs : List RingDev) (segid : BitVec 3) (counterAt : Word) (anew : Bool) (s : State) : State :=
  let ring := ringFrom mgr devs
  let pairs := ring.filter fun d => d.role = 2
  let pair := decide (pairs.length = 2) && adjacentPair ring
  let ok := ring.filter (s.positions mgr)
  let members := addMembers (if anew then [] else s.link.members) ok
  let posOfSerial (x : Quad) : Option Nat := (members.find? fun m => m.serial = x).map (·.pos)
  let other := (pairs.find? fun d => d.serial ≠ mgr.serial).bind fun d => posOfSerial d.serial
  let me := s.boot.serial
  let top := devs.foldl (fun m d => max m d.counter.toNat) s.clk.sysCnt.toNat
  let active := decide (me = mgr.serial)
  let spur := s.link.ports[2]
  let seg : BitVec 3 := if !active then segid else if spur.lanes[1] && !spur.lanes[0] then 0
    else match s.link.spurSeg with | some k => k + 1 | none => segid
  let s : State := { s with
    link.members := members, link.pos := (posOfSerial me).map (fin 32), link.segid := seg,
    link.active := active, link.standby := pair && !active && (other = posOfSerial me), link.paired := pair,
    link.joined := s.link.joined || active, link.originE := if active then .held else s.link.originE,
    link.originW := if active then .held else s.link.originW, link.grantsAll := s.link.grantsAll || (active && anew),
    link.taps := if anew then vmap (fun t => t.map fun (t : Tap) => { t with west := true }) s.link.taps else s.link.taps,
    link.mgrPos := (posOfSerial mgr.serial).getD 0, link.stbyPos := if pair then other.getD 0 else 0 }
  let s := if active && s.clk.actSrc = some .ridge then loseSource .ridge s else s
  let s := schedule (.counter ((top - s.clk.sysCnt.toNat : Nat) + s.clk.sysHold)) (some counterAt) s
  let s := if decide (pairs.length = 2) && !pair && s.managerRole then raise 0x8804 [3] s else s
  if active then raise 0x8803 [wordN members.length, s.link.segid.zeroExtend 32] s else s

/-- SEGMENT_FORMATION. -/
def execSegmentFormation (devs : List RingDev) (segid : BitVec 3) (counterAt : Word) (anew : Bool) (s : State) : Out :=
  done <|
    if s.standalone then s
    else match formConflict s.coreHz devs with
      | some k => if s.managerRole then raise 0x8804 [wordN k] s else s
      | none => match formManager devs with
        | some m => retime (formSegment m devs segid counterAt anew s)
        | none => s

/-! ### Manager pair (R333, R334, R340) -/

/-- The standby finds the active member failed: 8 frames on both ports without a new HBSEQ, or 8 that read its beacon as quiet (R333). -/
def State.mgrFailed (s : State) : Bool :=
  let e := s.link.ports[0]
  let w := s.link.ports[1]
  decide ((8 ≤ e.stale ∧ 8 ≤ w.stale) ∨ 8 ≤ e.quietRun ∨ 8 ≤ w.quietRun)

/-- FAILOVER: the standby becomes active with the other pair member as its standby, leaves RIDGE for the next qualified source and reports
the last host command that the mirror carried (R334). -/
def execFailover (s : State) : Out :=
  done <|
    if s.link.standby ∧ !s.link.active ∧ s.mgrFailed then
      let s : State := { s with link.active := true, link.standby := false, link.epoch := s.link.epoch + 1, link.tdist := 0,
                                link.mgrPos := s.originPos, link.stbyPos := s.link.mgrPos, link.refreshAt := 0, link.grantsAll := false,
                                link.ports := vmap (fun (p : RPort) => { p with stale := 0, quietRun := 0 }) s.link.ports }
      let s := loseSource .ridge s
      let s := if s.link.consist ∧ !(s.link.ports[2]).lanes[0] then leaveConsist s else s
      raise 0x8805 [wordN (boolN s.link.sync), (Config.mirrorSeq s.link.mirrored).zeroExtend 32, s.link.epoch.zeroExtend 32] s
    else s

/-! ### Twins (R335, R391) -/

/-- The partner of this device. -/
def State.partner (s : State) : Option Nat :=
  match s.link.pos with
  | none => none
  | some p => (s.link.twins.find? fun t => t.a = p.val || t.b = p.val).map fun t => if t.a = p.val then t.b else t.a

/-- A channel that the policy raises: its thermal gain is 0 dB and no period was limited in the last second. -/
def State.raisable (s : State) (c : ChanId) : Bool :=
  let ch := s.pcd.ch[c]
  ch.gth = 0 && !ch.ilims.any (s.lately 1)

/-- The own channels that are paired with the partner's; every channel while this device does not hold the pairing. -/
def State.pairedMask (s : State) : BitVec 16 :=
  match s.link.pos.bind fun p => s.link.twins.find? fun t => t.a = p.val || t.b = p.val with
  | none => BitVec.allOnes 16
  | some t =>
    let l : List (Nat × Nat) := (idx 16).filterMap fun k => t.pair[k].map fun b => (k.val, b.val)
    (maskOf (l.map fun x => fin 16 (if s.isMe t.a then x.1 else x.2))).truncate 16

/-- The partner's beacon bears a compensation out: it reads quiet, left or empty, or a channel of it is quiet by protection; or, at the
end of one, the partner is there. -/
def State.partnerSays (s : State) (quiet : Bool) : Bool :=
  match s.partner with
  | none => true
  | some p =>
    let b := ((s.link.members.find? fun (m : Member) => m.pos = p).map fun m => m.beacon).getD 0
    if quiet then s.absent p || fld b 12 4 ≠ 0 else !s.absent p

/-- TWIN_COMPENSATION: paired channels are raised, or return, over 480 ticks; the raises hold while Capo-H restarts (R335, R391, R439). -/
def execTwinCompensation (quiet : Bool) (mask : BitVec 16) (s : State) : Out :=
  done <|
    let mask := mask &&& s.pairedMask
    if s.sup.restarting ∨ (quiet ∧ !s.fw.twinOn) ∨ !s.partnerSays quiet then s
    else
      let (n, s) := s.fresh
      let ks : List ChanId := (bitsOf 16 mask).filter fun c => !quiet || s.raisable c
      let m : BitVec 16 := (maskOf ks).truncate 16
      let s : State := { s with link.comp := if quiet then s.link.comp ||| m else s.link.comp &&& ~~~m }
      let s := applyOffsets (some 480) ks s
      raise 0x8806 [match s.partner with | some p => wordN p | none => Config.freeWord n, wordN (boolN quiet),
        mask.zeroExtend 32] s

/-! ### Routes (R342) -/

/-- ROUTE_RESTORE at the summit: a route with its latency unchanged is restored. -/
def execRouteRestore (id : BitVec 12) (lat : Nat) (s : State) : Out :=
  done <|
    match s.link.routes.find? fun r => r.id = id.toNat with
    | some r =>
      if r.broken ∧ r.lat = lat ∧ s.summit then
        let s := raise 0x8807 [wordN r.id, 1, 0] (restoreSinks r.id s)
        sendAdmit (s.routeMsg 6 r) s
      else s
    | none => s

end Sys2Proof.Machine
end

