-- ==== Sys2Proof/Machine/FwLink.lean ====
section
/-! DEFINITION. LINK commands (14 Table 14.7; 12 R330, R335, R339 to R341, 17 R445). -/
namespace Sys2Proof.Machine
open Sys2Proof

/-! ### LINK_STATUS -/

/-- The serial numbers of the positioned devices, by position, low word first. -/
def State.inventory (s : State) : List Word :=
  (List.range 32).flatMap fun p => match s.link.members.find? fun (m : Member) => m.pos = p with
    | some m => [m.serial.truncate 32, (m.serial >>> 32).truncate 32]
    | none => []

/-- Ports that are up, EAST, WEST and SPUR from bit 0. -/
def State.upMask (s : State) : Word := wordN (maskOfBools (s.link.ports.toList.map fun (p : RPort) => p.up))

/-- LINK_STATUS. The first word holds position and SEGID as SYS_INFO lays them out, the ROLE strap in bits 17:16 and ACTIVE in bit 24
(DESIGN CHOICE: Table 14.7 names role and ACTIVE and does not place them; log 148). -/
def linkStatusCmd : Cmd :=
  { code := 0x0801, check := fun _ m => fTail 2 m,
    act := fun m _ s =>
      let first := s.posWord ||| wordN (s.boot.straps.role.toNat <<< 16 + boolN s.link.active <<< 24)
      let (h, s) := sendBulk s.inventory s
      ok m [first, s.upMask, s.clk.frame, s.link.errEast, s.link.errWest, s.link.errSpur0, s.link.errSpur1, h] s }

/-! ### Channels -/

/-- LINK_GRANT: ring channels, each to one device (R330). -/
def linkGrantCmd : Cmd :=
  { code := 0x0802,
    check := fun s m => firstOf [fRange 2 0 32 0 31 m, fRange 3 0 32 0 (s.linkChannels 0 - 1) m, fRange 4 0 32 1 64 m,
      need (mfld 3 0 32 m + mfld 4 0 32 m ≤ s.linkChannels 0) (eRange 4 0 0), fTail 5 m],
    act := fun m _ s =>
      let p := mfld 2 0 32 m
      let l := (List.range (mfld 4 0 32 m)).map fun i => mfld 3 0 32 m + i
      orElse m (firstOf [need (s.member && s.link.active) (.of eNotActive),
          need (!s.link.grants.any fun g => decide (g.2 ∈ l)) (.of eConflict)])
        (fun s => ok m [] { s with link.grants := s.link.grants ++ l.map fun c => (p, c) }) s }

/-- A link of the device: SPUR only on a manager or pair member. -/
def State.hasLink (s : State) (k : Nat) : Bool := k = 0 || s.managerRole

/-- Whether the manager has granted the device a ring channel. The manager knows its grants and forwards no other assignment; how a
device that the manager does not command knows them, the manual does not say (log 105). -/
def granted (c : Nat) (s : State) : Bool × State :=
  if s.link.active && s.link.grantsAll then (s.link.grants.any fun g => g.2 = c && s.isMe g.1, s)
  else if s.link.tunnelled then (true, s)
  else
    let (n, s) := s.fresh
    ((Config.freeWord n).getLsbD 0, s)

/-- The link and channel of a transmit column once the changes that wait are made. -/
def State.txNext (s : State) (i : Fin 64) : Option (Nat × Nat) :=
  s.fw.sched.foldl (fun x e => match e.change with | .tx j y => if j = i then y else x | _ => x) s.link.tx[i]

/-- Another column transmits the channel already. -/
def State.chanTaken (s : State) (i : Fin 64) (k c : Nat) : Bool := (idx 64).any fun j => j ≠ i && s.txNext j = some (k, c)

/-- LINK_TX takes effect at the next boundary (R21); what the manager has not granted is refused, and not forwarded (R330). -/
def linkTxCmd : Cmd :=
  { code := 0x0803,
    sends := fun s m => need (bit (mword m 2) 15 || mfld 2 8 2 m ≠ 0 || s.link.grants.contains ((destOf m).val, mfld 3 0 32 m)) (.of eState),
    check := fun s m => firstOf [fZero 2 6 2 m, fCode 2 8 2 2 m, fZero 2 10 5 m, fZero 2 16 16 m,
      fRange 3 0 32 0 (s.linkChannels (mfld 2 8 2 m) - 1) m, fTail 4 m],
    act := fun m _ s =>
      let i := fin 64 (mfld 2 0 6 m)
      let k := mfld 2 8 2 m
      let c := mfld 3 0 32 m
      if bit (mword m 2) 15 then ok m [] (atNext (.tx i none) s)
      else
        orElse m (firstOf [need (s.positioned && s.hasLink k) (.of eState), need (!s.chanTaken i k c) (.of eConflict)])
          (fun s =>
            let (g, s) := if k = 0 then granted c s else (true, s)
            if g then ok m [] (atNext (.tx i (some (k, c))) s) else deny m eState s) s }

/-- LINK_TAP (R330). -/
def linkTapCmd : Cmd :=
  { code := 0x0804,
    check := fun s m => firstOf [fZero 2 7 1 m, fCode 2 8 2 2 m, fZero 2 10 5 m, fZero 2 16 16 m,
      fRange 3 0 32 0 (s.linkChannels (mfld 2 8 2 m) - 1) m, fZero 4 5 3 m, fZero 4 11 21 m, fTail 5 m],
    act := fun m _ s =>
      let i := fin 128 (mfld 2 0 7 m)
      let k := mfld 2 8 2 m
      orElse m (firstOf [need s.positioned (.of eNotMember), need (s.hasLink k) (.of eState)])
        (fun s => ok m [] (setTap i (if bit (mword m 2) 15 then none
          else some (Tap.start k (mfld 3 0 32 m) (fin 32 (mfld 4 0 5 m)) (BitVec.ofNat 3 (mfld 4 8 3 m)))) s)) s }

/-! ### Twins (R335) -/

/-- b's channel paired with a's channel k. -/
def twinByte (m : Msg) (k : Nat) : Nat := mfld (4 + k / 4) (8 * (k % 4)) 8 m

def twinPair (m : Msg) : Vector (Option (Fin 16)) 16 :=
  vof fun k => if twinByte m k.val < 16 then some (fin 16 (twinByte m k.val)) else none

/-- One of b's channels is paired twice. -/
def pairTwice (m : Msg) : Bool :=
  let l := ((List.range 16).map (twinByte m)).filter fun b => b < 16
  !decide l.Nodup

def State.hasMember (s : State) (p : Nat) : Bool := s.link.members.any fun (x : Member) => x.pos = p

def linkTwinCmd : Cmd :=
  { code := 0x0805, len := fun _ => 8,
    check := fun _ m => firstOf ([fRange 2 0 32 0 31 m, fRange 3 0 32 0 31 m] ++ (List.range 16).map (fun k =>
        need (twinByte m k < 16 || twinByte m k = 255) (eRange (4 + k / 4) (8 * (k % 4)) 0)) ++ [fTail 8 m]),
    act := fun m _ s =>
      let a := mfld 2 0 32 m
      let b := mfld 3 0 32 m
      orElse m (firstOf [need (s.member && s.link.active) (.of eNotActive), need (s.hasMember a && s.hasMember b) (.of eState),
          need (a ≠ b && !pairTwice m && !s.link.twins.any fun t => t.a = a || t.b = a || t.a = b || t.b = b) (.of eConflict)])
        (fun s => ok m [] { s with link.twins := s.link.twins ++ [{ a := a, b := b, pair := twinPair m }] }) s }

def linkUntwinCmd : Cmd :=
  { code := 0x0806, check := fun _ m => firstOf [fRange 2 0 32 0 31 m, fTail 3 m],
    act := fun m _ s =>
      let a := mfld 2 0 32 m
      orElse m (need (s.link.twins.any fun t => t.a = a) (.of eState))
        (fun s => ok m [] { s with link.twins := s.link.twins.filter fun t => t.a ≠ a }) s }

/-! ### Routes of a consist (R341, R342, R386) -/

/-- The device manages the segment of a sink, and is not the summit (R386, log 90). -/
def State.asksFor (s : State) (seg : Nat) : Bool := s.link.active && s.link.consist && !s.summit && s.link.segid.toNat = seg

/-- LINK_ADMIT at the summit: the route with its latency, or a refusal that changes nothing. The sink's manager sends the request for its
host, and answers it as the summit does. -/
def linkAdmitCmd : Cmd :=
  { code := 0x0807,
    check := fun s m => firstOf [fRange 2 0 12 0 (s.linkChannels 0 - 1) m, fZero 2 12 4 m, fZero 2 21 3 m, fZero 2 27 5 m,
      fZero 3 7 9 m, fZero 3 21 3 m, fZero 3 27 5 m, fRange 4 0 32 1 65535 m, fTail 5 m],
    act := fun m _ s =>
      if s.asksFor (mfld 3 24 3 m) then sendAdmit (s.askMsg m) { awaitOwn m s with link.asks := s.link.asks ++ [m] }
      else if !s.summit then deny m eNotActive s
      else match s.admits (mfld 2 0 12 m) (mfld 2 16 5 m) (mfld 2 24 3 m) (mfld 3 0 7 m) (mfld 3 16 5 m) (mfld 3 24 3 m)
          (mfld 4 0 32 m) with
        | some r => ok m [wordN r.id, wordN r.lat] (grantRoute r s)
        | none => deny m eResource s }

/-- The sink of a route is in this segment. -/
def State.sinkHere (s : State) (id : Nat) : Bool := s.link.routes.any fun r => r.id = id && s.asksFor (fld r.sink 24 3)

/-- LINK_RELEASE at the summit, or for its host by the sink's manager, which sends the release (R386). -/
def linkReleaseCmd : Cmd :=
  { code := 0x0808, check := fun _ m => firstOf [fRange 2 0 32 0 4095 m, fTail 3 m],
    act := fun m _ s =>
      let id := mfld 2 0 32 m
      orElse m (firstOf [need (s.summit || s.sinkHere id) (.of eNotActive), need (s.link.routes.any fun r => r.id = id) (.of eState)])
        (fun s => ok m [] (sendAdmit (s.admitMsg 5 id) (releaseRoute id s))) s }

/-! ### Lanes (R313, R445) -/

/-- The segment has a break: a ring port of this device is down, or a member's beacon says so. -/
def State.hasBreak (s : State) : Bool :=
  !(s.link.ports[0]).up || !(s.link.ports[1]).up
    || s.link.members.any fun (m : Member) => m.beacon ≠ 0 && !(bit m.beacon 28 && bit m.beacon 29)

/-- LINK_PRBS: start takes the port down, stop ends the pattern; the errors counted are the neighbour's to cause. -/
def linkPrbsCmd : Cmd :=
  { code := 0x0809,
    check := fun _ m => firstOf [fCode 2 0 2 2 m, fZero 2 2 2 m, fZero 2 5 3 m, fZero 2 9 23 m, fTail 3 m],
    act := fun m _ s =>
      let p : RidgeId := fin 3 (mfld 2 0 2 m)
      let x := s.link.ports[p]
      if bit (mword m 2) 8 then
        orElse m (firstOf [need (x.prbs.isNone) (.of eBusy), need (!s.standalone && p ≠ 2 && !s.hasBreak) (.of eState)])
          (fun s => ok m [x.prbsErr] ((downPort p 0 s).modRPort p fun x => { x with prbs := some (fin 2 (mfld 2 4 1 m)) })) s
      else if x.prbs.isNone then ok m [x.prbsErr] s
      else
        let (n, s) := s.fresh
        let s := s.modRPort p fun x => { x with prbs := none, prbsErr := Config.freeWord n }
        ok m [Config.freeWord n] s }

/-- LINK_CFG: the GPIO of a module's loss of signal; a port without one is not held down. -/
def linkCfgCmd : Cmd :=
  { code := 0x080A,
    check := fun _ m => firstOf [fCode 2 0 32 2 m, need (mfld 3 0 32 m < 16 || mfld 3 0 32 m = 255) (eRange 3 0 0), fTail 4 m],
    act := fun m _ s =>
      let g := mfld 3 0 32 m
      ok m [] (s.modRPort (fin 3 (mfld 2 0 32 m)) fun x =>
        { x with losGpio := if g < 16 then some (fin 16 g) else none, los := false }) }

/-! ### The rows -/

def execLinkStatus (m : Msg) (s : State) : Out := row linkStatusCmd "LINK_STATUS" m s
def execLinkGrant (m : Msg) (s : State) : Out := row linkGrantCmd "LINK_GRANT" m s
def execLinkTx (m : Msg) (s : State) : Out := row linkTxCmd "LINK_TX" m s
def execLinkTap (m : Msg) (s : State) : Out := row linkTapCmd "LINK_TAP" m s
def execLinkTwin (m : Msg) (s : State) : Out := row linkTwinCmd "LINK_TWIN" m s
def execLinkUntwin (m : Msg) (s : State) : Out := row linkUntwinCmd "LINK_UNTWIN" m s
def execLinkAdmit (m : Msg) (s : State) : Out := row linkAdmitCmd "LINK_ADMIT" m s
def execLinkRelease (m : Msg) (s : State) : Out := row linkReleaseCmd "LINK_RELEASE" m s
def execLinkPrbs (m : Msg) (s : State) : Out := row linkPrbsCmd "LINK_PRBS" m s
def execLinkCfg (m : Msg) (s : State) : Out := row linkCfgCmd "LINK_CFG" m s

end Sys2Proof.Machine
end

