-- ==== Sys2Proof/Machine/FwGraph.lean ====
section
/-! DEFINITION. GRAPH commands: the placement of a graph over a segment (14 Table 14.8; 12 R338, 06 R170). What another device
has free is what the manager knows of it (log 106). -/
namespace Sys2Proof.Machine
open Sys2Proof

/-! ### The object (Table 14.8) -/

def graphM (l : List Byte) : Nat := le32 l 4
def graphC (l : List Byte) : Nat := le32 l 8

/-- Word j of module entry i, and of connection entry i. -/
def modWord (l : List Byte) (i j : Nat) : Word := objWord l (3 + 4 * i + j)
def conWord (l : List Byte) (i j : Nat) : Word := objWord l (3 + 4 * graphM l + 3 * i + j)

/-- The program object of a module. -/
def modObject (l : List Byte) (i : Nat) : List Byte := (l.drop (modWord l i 0).toNat).take (modWord l i 1).toNat

/-- The position that a module is pinned to. -/
def modPin (l : List Byte) (i : Nat) : Option Nat := if bit (modWord l i 2) 7 then some (fld (modWord l i 2) 0 5) else none

/-- The fields of an endpoint: top is 12 output channels and 512 rows for a source, 6 input columns and 256 columns for a sink. -/
def endpointFail (mods : Nat) (w : Word) (j i chans top : Nat) : Option Fail :=
  if bit w 31 then
    firstOf [need (fld w 0 9 < top) (eRange j 0 i), need (fld w 9 7 = 0) (eReserved j 9 i), need (fld w 21 10 = 0) (eReserved j 21 i)]
  else
    firstOf [need (fld w 0 4 < chans) (eRange j 0 i), need (fld w 4 4 = 0) (eReserved j 4 i), need (fld w 8 8 < mods) (eRange j 8 i),
      need (fld w 16 15 = 0) (eReserved j 16 i)]

/-- Module entry i, with its program object. -/
def moduleFails (l : List Byte) (budget i : Nat) : Option Fail :=
  firstOf [need (fld (modWord l i 2) 5 2 = 0) (eReserved 2 5 i), need (fld (modWord l i 2) 8 24 = 0) (eReserved 2 8 i),
    loadFail (modObject l i) budget]

/-- Connection entry i; entries are numbered after the modules. -/
def connFails (l : List Byte) (i : Nat) : Option Fail :=
  let e := graphM l + i
  let g := (conWord l i 2).toInt
  firstOf [endpointFail (graphM l) (conWord l i 0) 0 e 12 512, endpointFail (graphM l) (conWord l i 1) 1 e 6 256,
    need (g ≠ -32768) (eReserved 2 0 e), need (decide (-32767 ≤ g) && decide (g ≤ 32767)) (eRange 2 0 e)]

def graphFails (l : List Byte) (budget : Nat) : List (Option Fail) :=
  (List.range (graphM l)).map (moduleFails l budget) ++ (List.range (graphC l)).map (connFails l)

/-! ### What devices have free (R338) -/

/-- What this device has free. -/
def State.devFree (s : State) : DevFree :=
  { groups := (maskOf ((idx 16).filter fun g => s.grp[g].owner.isNone && (s.audOf g).isNone && !s.starting.contains g)).truncate 16,
    engs := (maskOf s.spares).truncate 20,
    tx := BitVec.ofNat 64 (((idx 64).filter fun i => (s.txNext i).isNone).foldl (fun n i => n + 2 ^ i.val) 0),
    taps := BitVec.ofNat 128 (((idx 128).filter fun i => s.link.taps[i].isNone).foldl (fun n i => n + 2 ^ i.val) 0),
    taken := vof fun t => (List.range 2048).filter fun b => !s.tile[t].isFree b }

/-- The devices of the segment with what they have free: this one as it is, any other as the manager knows it (log 106). -/
def State.inventoryFree (s : State) : List (Nat × DevFree) :=
  s.link.members.map fun m => (m.pos, if s.isMe m.pos then s.devFree else m.free)

def freeEngines (d : DevFree) : List EngId := (idx 20).filter fun e => d.engs.getLsbD e.val
def firstGroup (d : DevFree) : Option GrpId := (idx 16).find? fun g => d.groups.getLsbD g.val

/-- The blocks that a program takes on an engine, if they are free. -/
def roomOn (d : DevFree) (p : ProgInfo) (e : EngId) : Option (List Nat) :=
  let n := ((layLines (posOf e) 0 0 (p.dl.map fun x => (x.1, x.2.1, false))).2 + 511) / 512
  (freeRunOf (fun b => !(d.taken[tileOf e]).contains b) n).map fun b => (List.range n).map (b + ·)

/-- The engine that a device gives a program, with its blocks: the spare for a direct start, or another that fits. -/
def roomFor (d : DevFree) (p : ProgInfo) : Option (EngId × List Nat) :=
  ((directOf (freeEngines d)).toList ++ freeEngines d).findSome? fun e => (roomOn d p e).map fun b => (e, b)

/-- Group, engine and blocks for a program, and what is left. -/
def takeRoom (d : DevFree) (p : ProgInfo) : Option (GrpId × EngId × DevFree) :=
  match firstGroup d, roomFor d p with
  | some g, some (e, b) =>
    let t := tileOf e
    some (g, e, { d with groups := d.groups &&& ~~~BitVec.ofNat 16 (2 ^ g.val), engs := d.engs &&& ~~~BitVec.ofNat 20 (2 ^ e.val),
                         taken := d.taken.set t.val (b ++ d.taken[t]) })
  | _, _ => none

/-! ### Placement (R338): a function of the graph and of the inventory -/

/-- What the placement has chosen: position, group and engine of the modules placed so far, and what the devices have left. -/
structure Placing where
  places : List (Nat × GrpId × EngId)
  inv    : List (Nat × DevFree)
deriving DecidableEq, Repr

/-- A device with what it has left. -/
def setFree (p : Nat) (d : DevFree) (l : List (Nat × DevFree)) : List (Nat × DevFree) := l.map fun x => if x.1 = p then (p, d) else x

/-- The position of an endpoint, once it is known. -/
def endPos (w : Word) (l : List (Nat × GrpId × EngId)) : Option Nat :=
  if bit w 31 then some (fld w 16 5) else (l[fld w 8 8]?).map (·.1)

/-- An endpoint is a port of module i. -/
def ofModule (w : Word) (i : Nat) : Bool := !bit w 31 && fld w 8 8 = i

/-- The ridge channels that module i adds at position p: its connections to known ends elsewhere. -/
def addedChannels (g : List Byte) (l : List (Nat × GrpId × EngId)) (i p : Nat) : Nat :=
  countIf (fun k =>
    let a := conWord g k 0
    let b := conWord g k 1
    if ofModule a i && ofModule b i then false
    else if ofModule a i then (match endPos b l with | some q => q ≠ p | none => false)
    else if ofModule b i then (match endPos a l with | some q => q ≠ p | none => false)
    else false) (List.range (graphC g))

/-- Of some candidates, each with the channels that it adds and its position, the one with the fewest, at the lowest position. -/
def bestOf : List (Nat × Nat × GrpId × EngId × DevFree) → Option (Nat × Nat × GrpId × EngId × DevFree)
  | [] => none
  | x :: l => match bestOf l with
    | some y => if x.1 < y.1 ∨ (x.1 = y.1 ∧ x.2.1 ≤ y.2.1) then some x else some y
    | none => some x

/-- Place module i: on any device, or on the one it is pinned to. -/
def placeModule (g : List Byte) (budget i : Nat) (x : Placing) : Option Placing :=
  match loaded (modObject g i) budget with
  | none => none
  | some p =>
    let ds := x.inv.filter fun d => match modPin g i with | some r => r = d.1 | none => true
    let cs := ds.filterMap fun d => (takeRoom d.2 p.info).map fun c => (addedChannels g x.places i d.1, d.1, c)
    (bestOf cs).map fun c => { places := x.places ++ [(c.2.1, c.2.2.1, c.2.2.2.1)], inv := setFree c.2.1 c.2.2.2.2 x.inv }

/-- Place every module in the order listed. -/
def placeAll (g : List Byte) (budget : Nat) : List Nat → Placing → Option Placing
  | [], x => some x
  | i :: l, x => match placeModule g budget i x with
    | some y => placeAll g budget l y
    | none => none

/-! ### Connections -/

/-- Row of a source endpoint, and column of a sink endpoint, on the device that holds it. -/
def endRow (w : Word) (l : List (Nat × GrpId × EngId)) : Nat :=
  if bit w 31 then fld w 0 9 else 288 + 12 * ((l[fld w 8 8]?).map (·.2.1.val)).getD 0 + fld w 0 4
def endCol (w : Word) (l : List (Nat × GrpId × EngId)) : Nat :=
  if bit w 31 then fld w 0 8 else 128 + 6 * ((l[fld w 8 8]?).map (·.2.1.val)).getD 0 + fld w 0 4

/-- A crosspoint target of set A. -/
def xpEntry (row col : Nat) (v : Int) : BatchEntry := { kind := 0, row := row, col := col, val := v }

/-- What the connections have taken so far: the plan, and what the devices have left. -/
structure Wiring where
  plan : GraphPlan
  inv  : List (Nat × DevFree)
deriving DecidableEq, Repr

/-- The lowest ring channel that is granted to nobody (Table 12.2). -/
def freeChannel (channels : Nat) (grants : List (Nat × Nat)) : Option Nat :=
  (List.range channels).find? fun c => !grants.any fun g => g.2 = c

/-- The lowest set bit below n. -/
def lowBit (n : Nat) (v : Nat) : Option Nat := (List.range n).find? fun i => v.testBit i

/-- The source of a channel: a transmit column of its device with the row at unity. -/
def connSource (pos row c : Nat) (x : Wiring) : Option Wiring :=
  match x.inv.find? fun d => d.1 = pos with
  | none => none
  | some (_, d) => (lowBit 64 d.tx.toNat).map fun i =>
    { plan := { x.plan with tx := x.plan.tx ++ [(pos, i, c)], xps := x.plan.xps ++ [(pos, xpEntry row (64 + i) 16384)] },
      inv := setFree pos { d with tx := d.tx &&& ~~~BitVec.ofNat 64 (2 ^ i) } x.inv }

/-- The sink of a channel: a tap of its device with its row at the gain. -/
def connSink (owner pos col c : Nat) (v : Int) (x : Wiring) : Option Wiring :=
  match x.inv.find? fun d => d.1 = pos with
  | none => none
  | some (_, d) => (lowBit 128 d.taps.toNat).map fun i =>
    { plan := { x.plan with taps := x.plan.taps ++ [(pos, i, c, owner)], xps := x.plan.xps ++ [(pos, xpEntry (160 + i) col v)] },
      inv := setFree pos { d with taps := d.taps &&& ~~~BitVec.ofNat 128 (2 ^ i) } x.inv }

/-- One connection: a crosspoint on one device, or the lowest free channel between two. -/
def connect (g : List Byte) (l : List (Nat × GrpId × EngId)) (channels : Nat) (grants : List (Nat × Nat)) (k : Nat) (x : Wiring) :
    Option Wiring :=
  let a := conWord g k 0
  let b := conWord g k 1
  let v := (conWord g k 2).toInt
  match endPos a l, endPos b l with
  | some pa, some pb =>
    if pa = pb then
      if x.inv.any fun d => d.1 = pa then
        some { x with plan := { x.plan with map := x.plan.map ++ [0xFFFF],
                                            xps := x.plan.xps ++ [(pa, xpEntry (endRow a l) (endCol b l) v)] } }
      else none
    else match freeChannel channels (grants ++ x.plan.grants) with
      | none => none
      | some c =>
        let y := { x with plan := { x.plan with map := x.plan.map ++ [wordN c], grants := x.plan.grants ++ [(pa, c)] } }
        (connSource pa (endRow a l) c y).bind (connSink pa pb (endCol b l) c v)
  | _, _ => none

def connectAll (g : List Byte) (l : List (Nat × GrpId × EngId)) (channels : Nat) (grants : List (Nat × Nat)) :
    List Nat → Wiring → Option Wiring
  | [], x => some x
  | k :: ks, x => match connect g l channels grants k x with
    | some y => connectAll g l channels grants ks y
    | none => none

/-- The whole placement, by the graph, the inventory and the channels in use; none where a module or a channel finds no room. -/
def planGraph (g : List Byte) (n : Fin 16) (budget channels : Nat) (grants : List (Nat × Nat)) (inv : List (Nat × DevFree)) :
    Option Wiring :=
  match placeAll g budget (List.range (graphM g)) { places := [], inv := inv } with
  | none => none
  | some x =>
    let p : GraphPlan := { map := x.places.map fun y => wordN (y.1 + y.2.1.val <<< 8), cgroup := n,
                           mods := x.places.map fun y => (fin 32 y.1, y.2), xps := [], tx := [], taps := [], grants := [], inv := inv }
    connectAll g x.places channels grants (List.range (graphC g)) { plan := p, inv := x.inv }

/-! ### What the manager sends (R336, R338) -/

/-- Groups of at most six batch entries (Table 14.5). -/
def sixes : Nat → List BatchEntry → List (List BatchEntry)
  | 0, _ => []
  | n + 1, l => if l = [] then [] else l.take 6 :: sixes n (l.drop 6)

/-- A route batch of the manager's own for a device at a frame, with its schedule (R156, R338). -/
def sendBatch (d : Fin 32) (f : Word) (n : Fin 16) (l : List BatchEntry) (s : State) : State :=
  let ws := wordN l.length :: l.flatMap fun e => [wordN (e.kind <<< 28 + e.row <<< 8 + e.col), wordI e.val]
  let r := ownCommand 0 0x0401 (some f) ws s
  let x : SchedOut := { f := f, kind := 3, id := s.link.nextSched, target := d.val, all := false, cgroup := n, key := fld r.1.w[0] 0 24 }
  sendKept d r.1 { r.2 with link.schedOut := r.2.link.schedOut ++ [x], link.nextSched := (s.link.nextSched + 1) % 4096 }

/-- The crosspoints of a plan on other devices: at their gains, or at zero. -/
def sendRoutes (f : Word) (on : Bool) (p : GraphPlan) (s : State) : State :=
  (idx 32).foldl (fun s d =>
    if s.isMe d.val then s
    else
      let l := (p.xps.filter fun x => x.1 = d.val).map fun x => if on then x.2 else { x.2 with val := 0 }
      (sixes l.length l).foldl (fun s b => sendBatch d f p.cgroup b s) s) s

/-- The schedules that those batches take. -/
def State.routeCount (s : State) (p : GraphPlan) : Nat :=
  ((idx 32).map fun d => if s.isMe d.val then 0 else ((p.xps.filter fun x => x.1 = d.val).length + 5) / 6).foldl (· + ·) 0

/-- The ENG_AUDITION of a module for another device: AUTO in the commit group, every other field at its default. -/
def audMessage (g : GrpId) (n : Fin 16) : Msg :=
  { mkMsg 0 [0, 0, wordN (g.val + 2 <<< 12 + n.val <<< 16)] with len := 14 }

/-- A module here is loaded as a candidate of the commit group; elsewhere it waits to be sent. -/
def placeOne (g : List Byte) (n : Fin 16) (i : Nat) (x : Fin 32 × GrpId × EngId) (s : State) : Option State :=
  if s.isMe x.1.val then
    match loaded (modObject g i) s.clk.mrate.budget with
    | none => none
    | some p =>
      (placeAudition x.2.1 { Audition.default .host x.2.2 false with confirm := false, cgroup := n } p.loading s).map
        (atNext (.audition x.2.1))
  else
    let j : Deploy := { pos := x.1, obj := modObject g i, aud := audMessage x.2.1 n, opened := none, handle := none }
    some { s with link.jobs := s.link.jobs ++ [j] }

def placePlan (g : List Byte) (n : Fin 16) : List (Nat × Fin 32 × GrpId × EngId) → State → Option State
  | [], s => some s
  | x :: l, s => match placeOne g n x.1 x.2 s with
    | some t => placePlan g n l t
    | none => none

/-! ### The commands -/

/-- A commit group with no member. -/
def State.freeCgroup (s : State) : Option (Fin 16) :=
  (idx 16).find? fun n => n ≠ 0 && s.members n = [] && s.others n = [] && !s.framed n

/-- The frame at which the manager commits: the command's, or one of its own that leaves room for the transfers, the auditions
(N = 1,024) and the schedule (R157, log 52). -/
def graphFrame (f : Option Word) (size : Nat) (s : State) : Word × State :=
  match f with
  | some f => (f, s)
  | none => let (n, s) := s.fresh; (s.sendFrame 0 + BitVec.ofNat 32 (1090 + size / 8) + (Config.freeWord n &&& 0xFFFF), s)

/-- GRAPH_SUBMIT: the map at once as an outbound transfer, the modules as auditions here and through the tunnel, everything made at one
frame. -/
def graphSubmit (m : Msg) (f : Option Word) (s : State) : State :=
  let g := s.objBytes (mfld 2 0 32 m) .graph
  match s.freeCgroup.bind fun n => planGraph g n s.clk.mrate.budget (s.linkChannels 0) s.link.grants s.inventoryFree with
  | none => deny m eResource s
  | some x =>
    let p := x.plan
    match placePlan g p.cgroup ((List.range p.mods.length).zip p.mods) s with
    | none => deny m eResource s
    | some t =>
      let t : State := { t with link.members := t.link.members.map fun y =>
        { y with free := ((x.inv.find? fun d => d.1 = y.pos).map (·.2)).getD y.free } }
      let late := f.any fun f => !s.farEnough (s.routeCount p - 1) f
      if late then deny m eLate s else
      let (f, t) := graphFrame f (g.length + 8 * s.routeCount p) t
      let (h, t) := sendBulk p.map t
      ok m [h, f] (openNext (sendRoutes f true p (schedule (.graph (some p)) (some f) t)))

/-- The manager's own frame, at least 64 after k schedules have gone out (R157). -/
def farFrame (k : Nat) (m : Msg) (s : State) : Option Fail := need (!isAt m || s.farEnough (k - 1) (mword m 1)) (.of eLate)

/-- The schedules that clearing the present graph takes. -/
def State.clearCount (s : State) : Nat := match s.link.graph with | some p => s.routeCount p | none => 0

def graphSubmitCmd : Cmd :=
  { code := 0x0901, timed := true,
    check := fun s m => match firstOf [fHandle 2 0 32 m, needObject s (mfld 2 0 32 m) .graph 2 0, fTail 3 m] with
      | some f => some f
      | none => firstOf (graphFails (s.objBytes (mfld 2 0 32 m) .graph) s.clk.mrate.budget),
    act := fun m f s => orElse m (firstOf [need (s.member && s.link.active && s.link.pos.isSome) (.of eNotActive), farFrame 1 m s])
      (graphSubmit m f) s }

/-- The modules of a graph on other devices are removed at a frame. -/
def sendRemoves (f : Word) (p : GraphPlan) (s : State) : State :=
  p.mods.foldl (fun s x => if s.isMe x.1.val then s else sendOwn x.1 0 0x0502 (some f) [wordN x.2.1.val] s) s

/-- GRAPH_CLEAR. -/
def graphClearAt (m : Msg) (f : Option Word) (s : State) : State :=
  let (f, s) := match f with | some f => (f, s) | none => s.pickFrame (s.clearCount - 1)
  let s := match s.link.graph with
    | some p => sendRoutes f false p (sendRemoves f p s)
    | none => s
  ok m [f] (schedule (.graph none) (some f) s)

def graphClearCmd : Cmd :=
  { code := 0x0902, timed := true, check := fun _ m => fTail 2 m,
    act := fun m f s => orElse m (firstOf [need (s.member && s.link.active) (.of eNotActive), farFrame s.clearCount m s,
      need s.link.graph.isSome (.of eState)]) (graphClearAt m f) s }

def execGraphSubmit (m : Msg) (s : State) : Out := row graphSubmitCmd "GRAPH_SUBMIT" m s
def execGraphClear (m : Msg) (s : State) : Out := row graphClearCmd "GRAPH_CLEAR" m s

end Sys2Proof.Machine
end

