-- ==== Sys2Proof/Machine/FwPol.lean ====
section
/-! DEFINITION. EVT and POL commands and the cabin-noise policy (14 Table 14.9, R370, R387 to R394). -/
namespace Sys2Proof.Machine
open Sys2Proof

/-! ### EVT -/

/-- The events of Table 14.13: group by group, the codes from the first on. -/
def isEvent (c : Nat) : Bool :=
  (0x8101 ≤ c && c ≤ 0x810A) || (0x8201 ≤ c && c ≤ 0x8208) || (0x8301 ≤ c && c ≤ 0x8307) || (0x8401 ≤ c && c ≤ 0x8405)
    || (0x8501 ≤ c && c ≤ 0x8507) || (0x8701 ≤ c && c ≤ 0x8713) || (0x8801 ≤ c && c ≤ 0x8807) || c = 0x8D01
    || c = 0x8E01 || c = 0x8E02

/-- Enable or disable one event, or all. -/
def setEvent (c : Nat) (on : Bool) (s : State) : State :=
  if c = 0xFFFF then { s with fw.allOff := !on, fw.evExc := [] }
  else
    let rest := s.fw.evExc.filter fun x => x ≠ c
    { s with fw.evExc := if s.fw.allOff = on then c :: rest else rest }

/-- EVT_ENABLE; a request to disable the four events of R387 is ignored. -/
def evtEnableCmd : Cmd :=
  { code := 0x0D01,
    check := fun _ m => firstOf [need (isEvent (mfld 2 0 32 m) || mfld 2 0 32 m = 0xFFFF) (eReserved 2 0 0), fCode 3 0 32 1 m, fTail 4 m],
    act := fun m _ s => ok m [] (setEvent (mfld 2 0 32 m) (decide (mword m 3 = 1)) s) }

def evtCountCmd : Cmd :=
  { code := 0x0D02, early := true, check := fun _ m => fTail 2 m, act := fun m _ s => ok m [s.fw.loss, s.fw.drop0, s.fw.drop3] s }

def evtClearCmd : Cmd :=
  { code := 0x0D03, check := fun _ m => fTail 2 m,
    act := fun m _ s => ok m [] { s with fw.loss := 0, fw.drop0 := 0, fw.drop3 := 0 } }

/-! ### Zones (R388) -/

/-- The channels of a zone. -/
def Zone.ks (z : Zone) : List ChanId := bitsOf 16 z.chans

/-- Another zone declares one of the channels. -/
def State.zoneClash (s : State) (z : ZoneId) (mask : BitVec 16) : Bool :=
  (idx 16).any fun y => y ≠ z && s.fw.zone[y].on && (s.fw.zone[y].chans &&& mask) ≠ 0

/-- Declare a zone anew; a zone that is no longer declared has no gain. The offsets of its old and new channels follow. -/
def putZone (z : ZoneId) (on : Bool) (mask : BitVec 16) (g : GrpId) (c : Fin 12) (s : State) : State :=
  let old := s.fw.zone[z]
  let same := old.grp = g && old.chan = c
  let s := s.modZone z fun x =>
    { x with on := on, chans := mask, grp := g, chan := c, reads := if same && on then x.reads else [],
             gain := if on then x.gain else 0, stale := on && same && x.stale, falling := on && same && x.falling }
  let ks := if old.on then bitsOf 16 (old.chans ||| mask) else bitsOf 16 mask
  applyOffsets none (ks.filter fun k => s.mtx.cols[fin 256 (224 + k.val)].a ≠ (applied s.mtx.cols[fin 256 (224 + k.val)].hostA (s.offset k)).1
    || s.mtx.cols[fin 256 (224 + k.val)].b ≠ (applied s.mtx.cols[fin 256 (224 + k.val)].hostB (s.offset k)).1) s

def polZoneCmd : Cmd :=
  { code := 0x0E01,
    check := fun _ m => firstOf [fZero 2 4 4 m, fZero 2 9 23 m, fMask 3 16 m, fZero 4 4 4 m, fRange 4 8 4 0 11 m, fZero 4 12 20 m,
      fTail 5 m],
    act := fun m _ s =>
      let z := fin 16 (mfld 2 0 4 m)
      let on := bit (mword m 2) 8
      let mask : BitVec 16 := (mword m 3).truncate 16
      orElse m (need (!(on && s.zoneClash z mask)) (.of eConflict))
        (fun s => ok m [] (putZone z on mask (fin 16 (mfld 4 0 4 m)) (fin 12 (mfld 4 8 4 m)) s)) s }

def fZone (m : Msg) : Option Fail := fRange 2 0 32 0 15 m
def msgZone (m : Msg) : ZoneId := fin 16 (mfld 2 0 32 m)

def polNoiseCmd : Cmd :=
  { code := 0x0E02,
    check := fun _ m => firstOf [fZone m, fRange 3 0 32 0 120 m, fInt 4 (-800) 0 m, fRange 5 0 32 25 100 m, fCode 6 0 32 1 m, fTail 7 m],
    act := fun m _ s => ok m [] (s.modZone (msgZone m) fun z =>
      { z with gmax := mfld 3 0 32 m, nref := (mword m 4).toInt, slope := mfld 5 0 32 m, noiseOn := mword m 6 = 1 }) }

def polThermCmd : Cmd :=
  { code := 0x0E03, check := fun _ m => firstOf [fZone m, fCode 3 0 32 1 m, fTail 4 m],
    act := fun m _ s => ok m [] (s.modZone (msgZone m) fun z => { z with fold := mword m 3 = 1 }) }

/-- POL_TWIN: channels that compensate follow a new RAISE. -/
def polTwinCmd : Cmd :=
  { code := 0x0E04, check := fun _ m => firstOf [fCode 2 0 32 1 m, fRange 3 0 32 0 6 m, fTail 4 m],
    act := fun m _ s =>
      let old := s.fw.raise
      let s : State := { s with fw.twinOn := mword m 2 = 1, fw.raise := mfld 3 0 32 m }
      let ks : List ChanId := bitsOf 16 s.link.comp
      ok m [] (if old = s.fw.raise then s else applyOffsets (some 480) ks s) }

def polMigrCmd : Cmd :=
  { code := 0x0E05, check := fun _ m => firstOf [fCode 2 0 32 1 m, fRange 3 0 32 0 168 m, fTail 4 m],
    act := fun m _ s => ok m [] { s with fw.restartOn := mword m 2 = 1, fw.migrHours := mfld 3 0 32 m } }

/-- POL_KEEPALIVE (R371, R393). -/
def polKeepaliveCmd : Cmd :=
  { code := 0x0E06, safety := true, early := true,
    check := fun _ m => firstOf [need (mfld 2 0 32 m = 0 || (10 ≤ mfld 2 0 32 m && mfld 2 0 32 m ≤ 10000)) (eRange 2 0 0),
      fCode 3 0 32 1 m, fTail 4 m],
    act := fun m _ s => ok m [] { s with fw.kaInt := mfld 2 0 32 m, fw.kaQuiet := mword m 3 = 1 } }

/-! ### Noise (R388, R389) -/

/-- The power-average of the readings in 0.1 dB; none without a reading, or when every reading is 0. -/
def Zone.level (z : Zone) : Option Int :=
  levelCdB (2 * (z.reads.map fun (v : Word) => v.toInt.natAbs * v.toInt.natAbs).foldl (· + ·) 0) (z.reads.length * fullScale2) 100

/-- G in 0.1 dB; 0 while the policy is off, and at a level of minus infinity. -/
def Zone.target (z : Zone) : Nat :=
  if z.on ∧ z.noiseOn then
    match z.level with
    | some n => min z.gmax (roundHalfUp ((z.slope * (n - z.nref) : Int) / 100)).toNat
    | none => 0
  else 0

/-- A channel of the zone folds back. -/
def State.zoneFolds (s : State) (z : ZoneId) : Bool := (s.fw.zone[z].ks).any fun c => decide (s.pcd.ch[c].gth < 0)

/-- The owner of a zone's source, while it is LIVE. -/
def State.noiseOwner (s : State) (z : ZoneId) : Option EngId :=
  s.grp[s.fw.zone[z].grp].owner.bind fun e => if s.eng[e].st = .live then some e else none

/-- The value latched for a zone's row at the last tick end; 0 without a LIVE owner. -/
def State.noiseValue (s : State) (z : ZoneId) : Word :=
  match s.noiseOwner z with | some e => s.eng[e].latch[s.fw.zone[z].chan] | none => 0

/-- The row of a declared zone is read (R388). -/
def State.noiseReads (s : State) (z : ZoneId) : Bool :=
  s.fw.zone[z].on && s.fw.started && !s.sup.restarting && s.boot.phase = .firmware

/-- The noise policy of a zone runs; while Capo-H restarts the gains hold (R389, R439). -/
def State.noiseRuns (s : State) (z : ZoneId) : Bool := s.noiseReads z && s.fw.zone[z].noiseOn

/-- POL_STATUS: level, target, applied gain, twin raise, fold held; a level of minus infinity has no stated code. -/
def polStatusCmd : Cmd :=
  { code := 0x0E07, check := fun _ m => firstOf [fZone m, fTail 3 m],
    act := fun m _ s =>
      let i := msgZone m
      let z := s.fw.zone[i]
      let (n, s) := s.fresh
      let level : Word := match z.level with | some l => wordI l | none => Config.freeWord n
      let raised := z.ks.foldl (fun r c => max r (s.twinRaise c)) 0
      ok m [level, wordN z.target, wordN z.gain, wordN raised, wordN (boolN (s.zoneFolds i))] s }

/-- NOISE_READING, every 10 ms: the last 100 readings of a declared zone are kept; while its policy is on, a source that is back ends the
stale state (R388, R389). -/
def execNoiseReading (z : ZoneId) (s : State) : Out :=
  done <|
    if s.noiseReads z then
      let v := s.noiseValue z
      let back := s.fw.zone[z].stale && s.fw.zone[z].noiseOn && v ≠ 0
      let s := s.modZone z fun x =>
        { x with reads := (v :: x.reads).take 100, stale := x.stale && !back, falling := x.falling && !back }
      if back then raise 0x8E02 [wordN z.val, 0] s else s
    else s

/-- The gain that the next step of 0.1 dB gives (R389): held for 10 s after the source is lost, then falling. -/
def State.nextGain (s : State) (z : ZoneId) : Nat :=
  let x := s.fw.zone[z]
  if x.stale && x.noiseOn then (if x.falling then x.gain - 1 else x.gain)
  else if x.gain < x.target then (if s.zoneFolds z then x.gain else x.gain + 1)
  else if x.target < x.gain then x.gain - 1
  else x.gain

/-- NOISE_GAIN_STEP, every 100 ms. -/
def execNoiseGainStep (z : ZoneId) (s : State) : Out :=
  done <|
    let x := s.fw.zone[z]
    let g := s.nextGain z
    if !x.on ∨ !s.fw.started ∨ s.sup.restarting ∨ s.boot.phase ≠ .firmware ∨ g = x.gain then s
    else applyOffsets none x.ks (s.modZone z fun y => { y with gain := g })

/-- NOISE_SOURCE_STALE: no LIVE owner, or a row of zero, for 1 s. -/
def execNoiseSourceStale (z : ZoneId) (s : State) : Out :=
  done <|
    if s.noiseRuns z ∧ !s.fw.zone[z].stale ∧ s.noiseValue z = 0 then
      raise 0x8E02 [wordN z.val, 1] (s.modZone z fun x => { x with stale := true, falling := false })
    else s

/-- STALE_HOLD_EXPIRY: the 10 s hold is over. -/
def execStaleHoldExpiry (z : ZoneId) (s : State) : Out :=
  done <| if s.noiseRuns z ∧ s.fw.zone[z].stale then s.modZone z fun x => { x with falling := true } else s

/-! ### The rows -/

def execEvtEnable (m : Msg) (s : State) : Out := row evtEnableCmd "EVT_ENABLE" m s
def execEvtCount (m : Msg) (s : State) : Out := row evtCountCmd "EVT_COUNT" m s
def execEvtClear (m : Msg) (s : State) : Out := row evtClearCmd "EVT_CLEAR" m s
def execPolZone (m : Msg) (s : State) : Out := row polZoneCmd "POL_ZONE" m s
def execPolNoise (m : Msg) (s : State) : Out := row polNoiseCmd "POL_NOISE" m s
def execPolTherm (m : Msg) (s : State) : Out := row polThermCmd "POL_THERM" m s
def execPolTwin (m : Msg) (s : State) : Out := row polTwinCmd "POL_TWIN" m s
def execPolMigr (m : Msg) (s : State) : Out := row polMigrCmd "POL_MIGR" m s
def execPolKeepalive (m : Msg) (s : State) : Out := row polKeepaliveCmd "POL_KEEPALIVE" m s
def execPolStatus (m : Msg) (s : State) : Out := row polStatusCmd "POL_STATUS" m s

end Sys2Proof.Machine
end

