-- ==== Sys2Proof/Machine/FwSec.lean ====
section
/-! DEFINITION. FW and SEC commands (14 Table 14.8; 15 R395, R396, R403 to R410, R413, R417, R420). -/
namespace Sys2Proof.Machine
open Sys2Proof

/-! ### FW_INFO -/

/-- FW_INFO. Without a running slot, and without a running image, the words that name them are free; the two slot states follow. -/
def fwInfoCmd : Cmd :=
  { code := 0x0A01, early := true, check := fun _ m => fTail 2 m,
    act := fun m _ s =>
      let (n, s) := s.freshMany 3
      let state (x : SlotId) : Word := (s.slotState x).zeroExtend 32
      let img : List Word := if s.boot.running.isSome then [s.boot.image.svn.zeroExtend 32, s.boot.image.seq]
        else [Config.freeWord (n + 1), Config.freeWord (n + 2)]
      match s.boot.running with
      | some (.slot x) => ok m (((slotCode x).zeroExtend 32 :: img) ++ [state x, state (otherSlot x)]) s
      | _ => ok m ((Config.freeWord n :: img) ++ [state .a, state .b]) s }

/-! ### FW_UPDATE (R409, R410) -/

/-- What is read back from a slot; a slot beyond the density holds nothing. -/
def State.readSlot (s : State) (x : SlotId) : List Byte :=
  if s.inFlash (s.slotOff x) s.dir.slotSize then s.slotBytes x else []

/-- The announced size of a transfer (R403). -/
def State.objSize (s : State) (h : Nat) : Nat := match s.fw.handle[fin 8 (h - 1)] with | some x => x.size | none => 0

/-- The image came from source H or L. -/
def State.pushed (s : State) : Bool := s.boot.running = some .host || s.boot.running = some .link

/-- The slot has been written and read back; a trial, or a direct update. The byte offset that E_OBJECT reports is free. -/
def fwUpdate (m : Msg) (s : State) : State :=
  let x := s.targetSlot
  let l := s.readSlot x
  let s := flashWork false (fun f => Sfdp.read f false (s.slotOff x) (imgTotal l)) s
  let c := s.imageCheck l (min s.dir.slotSize (s.objSize (mfld 2 0 32 m)))
  let direct := decide (mword m 3 = 1)
  let seq := (imgInfo l).seq
  if c ≠ 0 then
    let (n, t) := (if direct then s else putDir (s.dir.setState x 4) s).fresh
    refuse m { imageFail c with ws := if c ≤ 0x42 then [Config.freeWord n] else [] } t
  else
    let d := if direct then { s.dir.written x 1 seq with active := slotCode x } else s.dir.written x 2 seq
    match writeDir d s with
    | some t => ok m [(slotCode x).zeroExtend 32] t
    | none => deny m eInternal s

def fwUpdateCmd : Cmd :=
  { code := 0x0A02,
    check := fun s m => firstOf [fHandle 2 0 32 m, needObject s (mfld 2 0 32 m) .image 2 0, fCode 3 0 32 1 m, fTail 4 m],
    act := fun m _ s => orElse m (need (!s.trying && (mword m 3 = 0 || s.pushed)) (.of eState)) (fwUpdate m) s }

/-! ### FW_CONFIRM (R408), FW_REBOOT -/

/-- The directory that confirms a trial: the running slot VALID and ACTIVE, and a TRIAL slot VALID too. -/
def State.confirmedDir (s : State) (x : SlotId) : DirRec :=
  let d := { s.dir.setState x 1 with active := slotCode x }
  if s.slotState (otherSlot x) = 2 then d.setState (otherSlot x) 1 else d

/-- Confirm the trial that runs: the write, then the watchdog stops; none when the write fails. -/
def confirmTrial (s : State) : Option State :=
  match s.boot.running with
  | some (.slot x) => (writeDir (s.confirmedDir x) s).map fun t => { t with boot.trial := false, boot.trialWd := none }
  | _ => none

def fwConfirmCmd : Cmd :=
  { code := 0x0A03, check := fun _ m => fTail 2 m,
    act := fun m _ s => orElse m (need s.boot.trial (.of eState)) (fun s => match confirmTrial s with
      | some t => ok m [] t
      | none => deny m eInternal s) s }

/-- FW_REBOOT resets the device and has no response (R407); the cause that is recorded is not stated. -/
def fwRebootCmd : Cmd :=
  { code := 0x0A04, check := fun _ m => fTail 2 m,
    act := fun _ _ s => let (n, s) := s.fresh; deviceReset ((Config.freeWord n).toNat % 6) s }

/-! ### SEC -/

/-- SEC_STATUS: the KH slots that are programmed and their REVOKE bits; DEBUG_DISABLE; the LOCK fields in the order of Table 15.1;
SVN; whether the key is withheld (R413). The manual does not place the bits. -/
def secStatusCmd : Cmd :=
  { code := 0x0B01, early := true, check := fun _ m => fTail 2 m,
    act := fun m _ s =>
      let kh := maskOf ((idx 4).filter fun i => s.boot.kh[i].isSome)
      ok m [kh ||| (s.boot.revoke.zeroExtend 32 <<< 4), wordN (boolN s.boot.debugDisable),
        wordN (boolN s.boot.khLock + 2 * boolN s.boot.orderLock + 4 * boolN s.boot.testLock),
        s.boot.image.svn.zeroExtend 32, wordN (boolN (!s.keyed))] s }

/-- SEC_REVOKE programs a REVOKE bit (R420). -/
def secRevokeCmd : Cmd :=
  { code := 0x0B02, check := fun _ m => firstOf [fRange 2 0 32 0 3 m, need (mword m 3 = 0x52564B31) (eRange 3 0 0), fTail 4 m],
    act := fun m _ s =>
      let i := fin 4 (mfld 2 0 32 m)
      orElse m (need (!s.signedBy i) (.of eState))
        (fun s => ok m [] { s with boot.revoke := s.boot.revoke ||| BitVec.ofNat 4 (2 ^ i.val) }) s }

/-- SEC_CRED seals the credential in the record (R417, R418). -/
def secCredCmd : Cmd :=
  { code := 0x0B03, check := fun s m => firstOf [fHandle 2 0 32 m, needObject s (mfld 2 0 32 m) .cred 2 0, fTail 3 m],
    act := fun m _ s =>
      let c := Config.credOf (s.objBytes (mfld 2 0 32 m) .cred)
      match sealWrite (renewed (fun r => { r with cred := c }) s) s with
      | some t => ok m [] { t with boot.cred := c }
      | none => deny m eState s }

def execFwInfo (m : Msg) (s : State) : Out := row fwInfoCmd "FW_INFO" m s
def execFwUpdate (m : Msg) (s : State) : Out := row fwUpdateCmd "FW_UPDATE" m s
def execFwConfirm (m : Msg) (s : State) : Out := row fwConfirmCmd "FW_CONFIRM" m s
def execFwReboot (m : Msg) (s : State) : Out := row fwRebootCmd "FW_REBOOT" m s
def execSecStatus (m : Msg) (s : State) : Out := row secStatusCmd "SEC_STATUS" m s
def execSecRevoke (m : Msg) (s : State) : Out := row secRevokeCmd "SEC_REVOKE" m s
def execSecCred (m : Msg) (s : State) : Out := row secCredCmd "SEC_CRED" m s

end Sys2Proof.Machine
end

