-- ==== Sys2Proof/Machine/Peri.lean ====
section
/-! DEFINITION. The peripheral serial port: its queue, held runs, pauses on PRDY, and PERI_XFER (16 R426 to R435). -/
namespace Sys2Proof.Machine
open Sys2Proof

/-! ### Bits and balls (R424, R425, R430) -/

/-- The WIDTH bits of a word in the order in which they travel, most significant first. -/
def wordBits (width : Nat) (w : Word) : List Bool := (List.range width).map fun i => bit w (width - 1 - i)

/-- A word from its bits. -/
def bitsWord (l : List Bool) : Word := BitVec.ofNat 32 (l.foldl (fun n b => 2 * n + boolN b) 0)

/-- The bits on PDO of the words of a run that are not sent only to read. -/
def PeriRun.bits (r : PeriRun) : List Bool := r.words.flatMap fun x => wordBits x.1 x.2

/-- Word k of those that an entry receives in one command, from the bits sampled on PDI. -/
def PeriIo.word (io : PeriIo) (e : PeriEntry) (k : Nat) : Word :=
  bitsWord ((List.range e.width).map fun b => io.pdi.getD (k * e.width + b) false)

/-- PSELn_N between two commands: low while a run is held on it. -/
def Peri.psel (p : Peri) (n : Fin 4) : Bool := p.held ≠ some n

/-- PCK between two commands: low, also in a held run and a pause. -/
def Peri.pck (_ : Peri) : Bool := false

/-- PDO between two commands: the first bit of the word that a pause stands before; low while no select is asserted; not stated in a held
run. -/
def Peri.pdo (p : Peri) : Option Bool := match p.paused with
  | some (e, rx) => some (bit (e.data.getD rx.length 0) (e.width - 1))
  | none => if p.held.isNone then some false else none

/-! ### Runs (R427, R429) -/

/-- An entry takes the port: a run held on another select is released first; one that is held on its own goes on. -/
def Peri.takes (e : PeriEntry) (p : Peri) : Peri :=
  if p.held = some e.sel then { p with sent := p.sent.drop (p.sent.length - 1) } else { p.release e.reply.isSome with sent := [] }

/-- A word as it travels: WIDTH bits. -/
def periWord (e : PeriEntry) (w : Word) : Word := BitVec.ofNat 32 (w.toNat % 2 ^ e.width)

/-- A word joins the run that is held on its select, or begins one. -/
def addWord (e : PeriEntry) (w : Word) (held : Bool) (l : List PeriRun) : List PeriRun :=
  match held, l.getLast? with
  | true, some r => l.dropLast ++ [{ r with words := r.words ++ [(e.width, periWord e w)] }]
  | _, _ => l ++ [{ sel := e.sel, words := [(e.width, periWord e w)], reads := 0 }]

/-- A word is shifted under its own assertion, or under the one that is held; with CONT = 0 it ends its run. -/
def Peri.shift (e : PeriEntry) (w : Word) (p : Peri) : Peri :=
  let p := { p with sent := addWord e w (decide (p.held = some e.sel)) p.sent }
  if e.cont then { p with held := some e.sel, hostRun := e.reply.isSome }
  else { p with held := none, hostRun := false, broken := p.broken || (p.hostRun && e.reply.isNone) }

/-- Shift the words from number k up to number n. -/
def Peri.shiftTo (e : PeriEntry) (k n : Nat) (p : Peri) : Peri :=
  ((e.data.drop k).take (n - k)).foldl (fun p w => p.shift e w) p

/-- The entry ends: the firmware answers PERI_XFER with the words that were received, missing ones zero (R435). -/
def endEntry (e : PeriEntry) (rx : List Word) (timeout : Bool) (s : State) : State :=
  let s : State := { s with peri.result := rx }
  match e.reply with
  | none => s
  | some m =>
    let w2 := wordN (rx.length + boolN timeout <<< 16 + boolN s.peri.broken <<< 17)
    let l := rx ++ List.replicate (e.data.length - rx.length) 0
    let s : State := { s with peri.broken := false }
    if e.byHandle then
      let (h, s) := sendBulk l s
      ok m [w2, h] s
    else ok m (w2 :: l) s

/-- Run an entry from word k on, with what the port sees: it pauses before a word at which PRDY is low (R430). -/
def runPeri (e : PeriEntry) (rx : List Word) (io : PeriIo) (s : State) : State :=
  let k := rx.length
  let n := e.data.length
  let stop := match io.pauseAt with
    | some i => if e.sel ≠ 0 ∧ i < n then max i k else n
    | none => n
  let got := rx ++ (List.range (stop - k)).map (PeriIo.word io e)
  let s : State := { s with peri := s.peri.shiftTo e k stop }
  if stop < n then { s with peri.paused := some (e, got) } else endEntry e got false { s with peri.paused := none }

/-- QUEUE_ENTRY: the port takes the next entry. -/
def execQueueEntry (io : PeriIo) (s : State) : Out :=
  done <| match s.peri.queue, s.peri.paused with
    | e :: l, none => runPeri e [] io { s with peri := { s.peri.takes e with queue := l } }
    | _, _ => s

/-- PRDY_SAMPLED_HIGH: the paused word starts, whatever the low level is seen at; the entry goes on. -/
def execPrdySampledHigh (io : PeriIo) (s : State) : Out :=
  done <| match s.peri.paused with
    | some (e, rx) =>
      let io := match io.pauseAt with
        | some i => { io with pauseAt := some (max i (rx.length + 1)) }
        | none => io
      runPeri e rx io s
    | none => s

/-- PRDY_TIMEOUT: the entry is aborted, the select rises at once (R430). -/
def execPrdyTimeout (s : State) : Out :=
  done <| match s.peri.paused with
    | some (e, rx) => endEntry e rx true { s with peri := { s.peri.release e.reply.isSome with paused := none } }
    | none => s

/-- HELD_RUN_EXPIRY: 100 ms with no entry queued (R429). -/
def execHeldRunExpiry (s : State) : Out :=
  done <| if s.peri.queue = [] ∧ s.peri.paused.isNone then { s with peri := s.peri.release false } else s

/-! ### PERI_XFER (R434, R435) -/

def periWidth (m : Msg) : Nat := mfld 2 2 5 m + 1
def periCount (m : Msg) : Nat := mfld 2 8 12 m
def periHandle (m : Msg) : Nat := mfld 4 0 32 m

/-- The fields in word order; inline data are at most 10 words. -/
def periFail (s : State) (m : Msg) : Option Fail :=
  let n := periCount m
  let h := periHandle m
  let obj := s.objBytes h .batch
  firstOf [fRange 2 2 5 7 31 m, need (1 ≤ n && n ≤ 4096 / periWidth m && (h ≠ 0 || n ≤ 10)) (eRange 2 8 0), fZero 2 20 12 m,
    fRange 3 0 32 1 65535 m, need (h ≤ 8) (eRange 4 0 0),
    if h = 0 then none else firstOf [needObject s h .batch 4 0, need (obj.length = 4 * n) (eRange 4 0 0)],
    fTail (if h = 0 then 5 + n else 5) m]

/-- The queue entry of a command. -/
def periEntry (s : State) (m : Msg) : PeriEntry :=
  let n := periCount m
  let obj := s.objBytes (periHandle m) .batch
  { sel := fin 4 (mfld 2 0 2 m), width := periWidth m, cont := bit (mword m 2) 7, timeout := mfld 3 0 32 m,
    data := (List.range n).map fun i => if periHandle m = 0 then mword m (5 + i) else objWord obj i,
    reply := some m, byHandle := periHandle m ≠ 0 }

/-- PERI_XFER becomes one entry and is answered when the entry ends; select 0 is the firmware's own. -/
def periXferCmd : Cmd :=
  { code := 0x0C01, len := fun m => if periHandle m = 0 ∧ periCount m ≤ 10 then max 8 (5 + periCount m) else 8, check := periFail,
    act := fun m _ s => orElse m (need (mfld 2 0 2 m ≠ 0) (.of eState))
      (fun s => { awaitOwn m s with peri.queue := s.peri.queue ++ [periEntry s m] }) s }

def execPeriXfer (m : Msg) (s : State) : Out := row periXferCmd "PERI_XFER" m s

end Sys2Proof.Machine
end

