-- ==== Sys2Proof/Machine/FwPwr.lean ====
section
/-! DEFINITION. PWR commands (14 Table 14.7, R380; 09 R252, R257, R258; 10 R262, R263, R277, R284). -/
namespace Sys2Proof.Machine
open Sys2Proof

/-! ### Settings (Tables 09.6 and 10.4) -/

def BoostMode.code : BoostMode → Nat
  | .pass => 0 | .fixed => 1 | .track => 2

/-- The present value of a power setting. -/
def State.pwrVal (s : State) (id i : Nat) : Int :=
  let c := s.pcd.ch[fin 16 i].cfg
  let r := s.pcd.rail[fin 4 i]
  match id with
  | 0x40 => c.vfs
  | 0x41 => c.cmramp
  | 0x42 => c.deadtime
  | 0x43 => r.mode.code
  | 0x44 => r.vmax
  | 0x45 => r.vidle
  | 0x46 => r.headroom
  | 0x47 => r.ratio
  | 0x48 => r.bilim
  | 0x49 => c.ilim
  | 0x4A => c.tFold
  | 0x4B => c.tStop
  | 0x4C => s.pcd.tFoldDie
  | 0x4D => s.pcd.tStopDie
  | 0x4E => c.foldMax
  | 0x4F => boolN c.lsup
  | _ => c.lsdev

def ChCfg.put (id : Nat) (v : Int) (c : ChCfg) : ChCfg :=
  let n := v.toNat
  match id with
  | 0x40 => { c with vfs := n }
  | 0x41 => { c with cmramp := n }
  | 0x42 => { c with deadtime := n }
  | 0x49 => { c with ilim := n }
  | 0x4A => { c with tFold := v }
  | 0x4B => { c with tStop := v }
  | 0x4E => { c with foldMax := v }
  | 0x4F => { c with lsup := n = 1 }
  | 0x50 => { c with lsdev := n }
  | _ => c

def Rail.put (id n : Nat) (r : Rail) : Rail :=
  match id with
  | 0x43 => { r with mode := if n = 0 then .pass else if n = 1 then .fixed else .track }
  | 0x44 => { r with vmax := n }
  | 0x45 => { r with vidle := n }
  | 0x46 => { r with headroom := n }
  | 0x47 => { r with ratio := n }
  | 0x48 => { r with bilim := n }
  | _ => r

/-- A checked power setting takes its value; on entry to TRACK r_n is V_floor (R255). -/
def putPwr (p : Pair) (s : State) : State :=
  let v := p.v.toInt
  let r : RailId := fin 4 p.i
  if p.id = 0x4C then { s with pcd.tFoldDie := v }
  else if p.id = 0x4D then { s with pcd.tStopDie := v }
  else if 0x43 ≤ p.id ∧ p.id ≤ 0x48 then
    s.modRail r fun x =>
      let y := x.put p.id v.toNat
      if y.mode = .track ∧ x.mode ≠ .track then { y with ref := s.vfloor r } else y
  else s.modCh (fin 16 p.i) fun ch => { ch with cfg := ch.cfg.put p.id v }

/-- Relations on the values after the command, each at the last pair that it ties (R258, R284). -/
def State.pwrRelations (s : State) (l : List Pair) : List (Option Fail) :=
  let v (id i : Nat) : Int := pairVal l id i (s.pwrVal id i)
  let at_ (ids : List Nat) (i : Nat) (b : Bool) : Option Fail := match lastPair l ids i with
    | some w => need b (eRange (w + 1) 0 0)
    | none => none
  (List.range 16).map (fun c => at_ [0x4A, 0x4B] c (decide (v 0x4A c + 5 ≤ v 0x4B c)))
    ++ [at_ [0x4C, 0x4D] 0 (decide (v 0x4C 0 + 5 ≤ v 0x4D 0))]
    ++ (List.range 4).map (fun r => at_ [0x44, 0x47] r (decide (128 * v 0x44 r + 1536 ≤ 5 * v 0x47 r)))
    ++ (List.range 4).map (fun r => at_ [0x44, 0x45] r (decide (v 0x45 r ≤ v 0x44 r)))

/-- What the present state of the channel or group refuses. -/
def State.pwrRefuses (s : State) (p : Pair) : Option Fail :=
  let c := s.pcd.ch[fin 16 p.i].st
  if p.id = 0x40 ∨ p.id = 0x42 then need (c = .off) (.of eState)
  else if p.id = 0x43 ∨ p.id = 0x47 ∨ p.id = 0x48 then
    need ((idx 16).all fun (k : ChanId) => railOf k ≠ fin 4 p.i || s.pcd.ch[k].st = .off) (.of eState)
  else if p.id = 0x49 ∨ p.id = 0x4F then need c.isQuiet (.of eState)
  else none

/-- The failure with the lowest word among relations. -/
def lowest (l : List (Option Fail)) : Option Fail :=
  l.foldl (fun a x => match a, x with
    | none, y => y
    | some f, some g => if (g.ws.headD 0).toNat < (f.ws.headD 0).toNat then some g else some f
    | some f, none => some f) none

def pwrSetCmd : Cmd :=
  { code := 0x0701, len := pairsLen,
    check := fun s m => firstOf [setFail 3 (fun _ => none) m, lowest (s.pwrRelations (pairs m))],
    act := fun m _ s => orElse m (firstOf ((pairs m).map s.pwrRefuses))
      (fun s => ok m [] ((pairs m).foldl (fun s p => putPwr p s) s)) s }

def pwrGetCmd : Cmd :=
  { code := 0x0702, check := fun _ m => getFail 3 m,
    act := fun m _ s => ok m [wordI (s.pwrVal (mfld 2 0 8 m) (mfld 2 8 8 m))] s }

/-! ### Channels -/

def fChannels (m : Msg) : Option Fail := firstOf [fMask 2 16 m, fTail 3 m]
def msgChans (m : Msg) : List ChanId := bitsOf 16 (mword m 2)

/-- A command for several channels; those for which it changes nothing are answered with their state, a word for each in the order of
the channels, as many as the message holds (R252, R262, log 102). -/
def chanCommand (f : ChanId → State → State) (m : Msg) (s : State) : State :=
  let l := msgChans m
  let same := l.filter fun c => (f c s).pcd.ch[c] = s.pcd.ch[c]
  ok m ((same.take 14).map fun c => wordN s.pcd.ch[c].st.code) (l.foldl (fun s c => f c s) s)

def pwrStartCmd : Cmd :=
  { code := 0x0703, check := fun _ m => fChannels m, act := fun m _ s => chanCommand startCh m s }

/-- A stop command: it changes nothing for a channel in OFF or RAMP_DOWN (R252); for any other it also ends a restart that waits for the
quiet state to end (R280, log 102). -/
def stopNow (c : ChanId) (s : State) : State :=
  match s.pcd.ch[c].st with
  | .off | .rampDown => s
  | _ => stopCh c .stop (s.modCh c fun ch => { ch with wasRun := false })

def pwrStopCmd : Cmd :=
  { code := 0x0704, safety := true, check := fun _ m => fChannels m, act := fun m _ s => chanCommand stopNow m s }

/-- LEARN needs a channel in RUN with LSUP on (R277). -/
def pwrLearnCmd : Cmd :=
  { code := 0x0705, check := fun _ m => fChannels m,
    act := fun m _ s =>
      orElse m (need ((msgChans m).all fun c => s.pcd.ch[c].st = .run && s.pcd.ch[c].lsupIn) (.of eState)) (fun s =>
        ok m [] ((msgChans m).foldl (fun s c => s.modCh c fun ch => { ch with learning := true, learn := [] }) s)) s }

/-- PWR_STATUS; Z as its magnitude in mΩ, and a free δ without a signature. -/
def pwrStatusCmd : Cmd :=
  { code := 0x0706, check := fun _ m => firstOf [fRange 2 0 32 0 15 m, fTail 3 m],
    act := fun m _ s =>
      let c := fin 16 (mfld 2 0 32 m)
      let x := s.pcd.ch[c]
      let (n, s) := s.fresh
      let delta : Word := match x.zSig with
        | some sig => wordN (sqrtNear (1000000 * delta2 x.zNow sig))
        | none => Config.freeWord n
      let ntc := if x.ntcBad then x.cfg.tFold * 10 else meanTenths x.ntc
      ok m [wordN x.st.code, wordN x.cls, wordN x.diag.gndA, wordN x.diag.gndB, wordN x.diag.supA, wordN x.diag.supB,
        wordN x.diag.load, wordN (sqrtNear (sq2 x.zNow.1 x.zNow.2)), delta, wordI (roundHalfUp (x.gth * 10)), x.clip,
        wordN (s.trips60 c).length, wordI ntc] s }

/-- A latched controller starts again, its channels with diagnostics (R257, Table 10.1). -/
def restartGroup (r : RailId) (s : State) : State :=
  forIdx 16 (fun c s => if railOf c = r ∧ s.pcd.ch[c].st = .railLatch then startDiag c false s else s)
    (s.modRail r fun x => { x with latched := false })

def pwrRestartCmd : Cmd :=
  { code := 0x0707, check := fun _ m => firstOf [fMask 2 4 m, fTail 3 m],
    act := fun m _ s => ok m [] ((bitsOf 4 (mword m 2)).foldl (fun s r => restartGroup r s) s) }

def pwrDiagCmd : Cmd :=
  { code := 0x0708, check := fun _ m => fChannels m,
    act := fun m _ s => orElse m (need ((msgChans m).all fun c => s.pcd.ch[c].st = .off) (.of eState))
      (fun s => ok m [] ((msgChans m).foldl (fun s c => diagInOff c s) s)) s }

/-! ### The rows -/

def execPwrSet (m : Msg) (s : State) : Out := row pwrSetCmd "PWR_SET" m s
def execPwrGet (m : Msg) (s : State) : Out := row pwrGetCmd "PWR_GET" m s
def execPwrStart (m : Msg) (s : State) : Out := row pwrStartCmd "PWR_START" m s
def execPwrStop (m : Msg) (s : State) : Out := row pwrStopCmd "PWR_STOP" m s
def execPwrLearn (m : Msg) (s : State) : Out := row pwrLearnCmd "PWR_LEARN" m s
def execPwrStatus (m : Msg) (s : State) : Out := row pwrStatusCmd "PWR_STATUS" m s
def execPwrRestart (m : Msg) (s : State) : Out := row pwrRestartCmd "PWR_RESTART" m s
def execPwrDiag (m : Msg) (s : State) : Out := row pwrDiagCmd "PWR_DIAG" m s

end Sys2Proof.Machine
end

