-- ==== Sys2Proof/Machine/Sleep.lean ====
section
/-! DEFINITION. SYS_SLEEP and the way into deep sleep, and the idle step (15 R422, 19 R472; 11 R305). -/
namespace Sys2Proof.Machine
open Sys2Proof

/-! ### The way into deep sleep (R422) -/

/-- A clock output stops as by CLK_OUTSTOP. -/
def stopOut (n : Fin 8) (s : State) : State := s.modOut n fun (o : ClkOut) => { o.gate (s.srcRate o) with started := false }

/-- Channels and ports are ordered to stop. -/
def stopPaths (s : State) : State :=
  forIdx 12 stopPort (forIdx 16 (fun c s => stopCh c .stop (s.modCh c fun ch => { ch with wasRun := false })) s)

/-- No channel switches any more and every port is OFF. -/
def State.stopped (s : State) : Bool :=
  (idx 16).all (fun (c : ChanId) => !s.pcd.ch[c].st.switching) && (idx 12).all fun (p : PortId) => decide (s.port[p].st = .off)

/-- The next part of the way into deep sleep, when it can be gone: once channels and ports have stopped, the clock outputs stop and the
command is answered; once the answer has been sent, the device sleeps (log 48). -/
def sleepStep (s : State) : State :=
  match s.fw.sleep with
  | none => s
  | some (mask, some m) => if s.stopped then ok m [] (forIdx 8 stopOut { s with fw.sleep := some (mask, none) }) else s
  | some (mask, none) => if s.fw.q[0] = [] ∧ s.queued 0 = 0 then enterSleep mask s else s

/-- SYS_SLEEP: refused while a slot is TRYING (R408), and with E_BUSY while another one is under way. -/
def sysSleepCmd : Cmd :=
  { code := 0x0108, check := fun _ m => firstOf [fMask 2 2 m, fTail 3 m],
    act := fun m _ s =>
      orElse m (firstOf [need (!s.trying) (.of eState), need s.fw.sleep.isNone (.of eBusy)])
        (fun s => stopPaths { awaitOwn m s with fw.sleep := some ((mword m 2).truncate 2, some m) }) s }

def execSysSleep (m : Msg) (s : State) : Out := row sysSleepCmd "SYS_SLEEP" m s

/-! ### The idle step -/

/-- The idle step on an empty queue: one core cycle; while no tick runs, the way into deep sleep goes on in it (log 1, log 48). -/
def idle (s : State) : State :=
  let t := passCycles 1 s
  if s.clk.tickRun then t else sleepStep t

end Sys2Proof.Machine
end

