-- ==== Sys2Proof/Machine/Firm.lean ====
section
/-! DEFINITION. The consumption of inbound messages, the reset of Capo-H alone, the keep-alive, and the PRIO_N sample (13 R364,
R368, R371; 14 R373, R375, R376, R381; 07 R184). -/
namespace Sys2Proof.Machine
open Sys2Proof

/-! ### MESSAGE_CONSUME -/

/-- Every command of Tables 14.5 to 14.9. -/
def allCmds : List Cmd :=
  [sysInfoCmd, sysStatusCmd, sysQuietCmd, sysKeepaliveCmd, sysXferOpenCmd, sysXferDropCmd, sysSaveCmd, sysSleepCmd,
   sysResetCmd, sysCntclrCmd, clkSetCmd, clkGetCmd, clkOutstartCmd, clkOutstopCmd, clkAsCmd, clkStatusCmd, portSetCmd,
   portGetCmd, portStartCmd, portStopCmd, portMaskCmd, portStatusCmd, portAesGetCmd, portAesSetCmd, portMicCmd,
   portLoopCmd, mtxBatchCmd, mtxBatchhCmd, mtxReadCmd, mtxColreadCmd, mtxArmCmd, mtxGenCmd, mtxStrikeCmd, mtxSaddleCmd,
   engStartCmd, engRemoveCmd, engAuditionCmd, engConfirmCmd, engAbortCmd, engStatusCmd, engClearCmd, engTestCmd,
   engAudstatusCmd, tuneWriteCmd, tuneWritehCmd, tuneReadCmd, tuneSwapCmd, pwrSetCmd, pwrGetCmd, pwrStartCmd, pwrStopCmd,
   pwrLearnCmd, pwrStatusCmd, pwrRestartCmd, pwrDiagCmd, linkStatusCmd, linkGrantCmd, linkTxCmd, linkTapCmd, linkTwinCmd,
   linkUntwinCmd, linkAdmitCmd, linkReleaseCmd, linkPrbsCmd, linkCfgCmd, graphSubmitCmd, graphClearCmd, fwInfoCmd,
   fwUpdateCmd, fwConfirmCmd, fwRebootCmd, secStatusCmd, secRevokeCmd, secCredCmd, periXferCmd, evtEnableCmd, evtCountCmd,
   evtClearCmd, polZoneCmd, polNoiseCmd, polThermCmd, polTwinCmd, polMigrCmd, polKeepaliveCmd, polStatusCmd]

/-- A code that no command has: BULK on a command mailbox, once the reserved bits of W0 are right, an unassigned group, an unassigned
function (R375). -/
def unknownFail (m : Msg) : Fail :=
  if cmdOf m = 1 then
    (firstOf [fZero 0 24 1 m, need (!isAt m) (eReserved 0 25 0), need (isFwd m || mfld 0 27 5 m = 0) (eReserved 0 27 0)]).getD (.of eMailbox)
  else if 0x0F ≤ mfld 0 8 8 m then eReserved 0 8 0
  else eReserved 0 0 0

/-- What a command that is not known is refused by; before the start is complete, and in the ROM, as any other (R399, R415). -/
def unknownCmd (m : Msg) (s : State) : State :=
  if s.boot.phase = .firmware then
    if s.serves then refuse m (unknownFail m) s else refuse m { status := eState, info := 1, ws := [] } s
  else deny m eState s

/-- Handle a message that has been consumed. -/
def handle (m : Msg) (s : State) : State :=
  if m.box = 1 ∧ cmdOf m = 1 then bulk m s
  else match allCmds.find? fun c => c.code = cmdOf m with
    | some c => runCmd c m s
    | none => unknownCmd m s

/-- The firmware, or the ROM, consumes messages. -/
def State.consuming (s : State) : Bool :=
  !s.sup.restarting && (s.boot.phase = .firmware || (s.boot.phase = .rom && (s.host.ready || s.link.tunnelled)))

/-- MESSAGE_CONSUME (R364): GO clears, the words stay, and the message is handled; MBI0 waits for a message on MBI3 (R376), and a
message on MBI1 that needs an answer for room in the queue of MBO1 (R370). -/
def execMessageConsume (b : BoxId) (s : State) : Out :=
  done <|
    let x := s.host.mbi[b]
    let m : Msg := { box := b, len := x.len, w := x.w }
    if s.consuming ∧ x.go ∧ (b = 0 → s.host.mbi[3].go = false) ∧ (b = 1 → cmdOf m = 1 ∨ s.queued 1 < 32) then
      arrive (handle m) m (s.modMbi b fun y => { y with go := false, placed := none })
    else s

/-! ### Capo-H and the keep-alive -/

/-- CAPO_H_RESET: a reset of Capo-H alone, while its firmware runs (R368, R421, R439). -/
def execCapoHReset (s : State) : Out := done <| if s.boot.phase = .firmware then capoHReset s else s

/-- KEEPALIVE_LAPSE (R371). -/
def execKeepaliveLapse (s : State) : Out :=
  done <|
    if s.fw.kaInt ≠ 0 ∧ !s.fw.kaLapsed ∧ s.boot.phase = .firmware ∧ !s.sup.restarting then
      let s := raise 0x8105 [wordN (boolN s.fw.kaQuiet)] { s with fw.kaLapsed := true }
      if s.fw.kaQuiet then setQuiet 4 s else s
    else s

/-! ### PRIO_N -/

/-- PRIO_N_SAMPLE: the level that the next boundary uses; while set B is not armed a fall raises MTX_PRIO (R184, R282). -/
def execPrioNSample (high : Bool) (s : State) : Out :=
  done <|
    if high = s.mtx.prio then s
    else
      let s := intset 4 { s with mtx.prio := high }
      if !high ∧ !s.mtx.armed then raise 0x8402 [wordN (boolN high)] s else s

end Sys2Proof.Machine
end

