-- ==== Sys2Proof/Machine/Boot.lean ====
section
/-! DEFINITION. Reset, boot, handover, the start of the firmware, deep sleep, watchdogs, debug and fuses (15; 17 R438, R439, R446;
18 R453, R455; 02 R483). -/
namespace Sys2Proof.Machine
open Sys2Proof

/-! ### Reset -/

/-- RESET_N (R455): 10 µs resets, less than 1 µs does nothing, between them the device decides. -/
def execResetN (lowNs : Nat) (s : State) : Out :=
  done <| if 10000 ≤ lowNs ∨ (1000 ≤ lowNs ∧ Config.shortPulseResets lowNs) then deviceReset causeResetN s else s

/-- SUPPLY_LOW: the die holds itself in reset (R453). -/
def execSupplyLow (s : State) : Out := done (deviceReset causePowerOn s)

/-! ### The ROM (R397, R398, R411) -/

/-- The sources of an order code; none for the codes that name no order (Table 15.2). -/
def bootOrderOf (c : Nat) : Option (List BootCode) :=
  match c with
  | 0 => some [.p, .h]
  | 1 => some [.p, .l, .h]
  | 2 => some [.l, .p]
  | 3 => some [.h]
  | 4 => some [.p]
  | 5 => some [.l]
  | _ => none

/-- A halt of the ROM: READY is 0, the PCD stays quiet. -/
def halt (code : BitVec 4) (s : State) : State := { s with boot.phase := .halted code, boot.order := [], host.ready := false }

/-- The halt after every source was tried (R411). -/
def haltCode (s : State) : BitVec 4 :=
  if s.boot.retFailed then 0xA
  else if !s.boot.responded then 2
  else if s.boot.trialFailed then 6
  else if s.boot.found && s.boot.onlyRevoked then 5
  else 4

/-- Try the sources in order: flash at once, the host and the link by waiting. -/
def romTry : List BootCode → State → State
  | [], s => halt (haltCode s) s
  | .p :: l, s =>
    if s.boot.flash.isSome then
      let t := bootFlash { s with boot.responded := true }
      if t.boot.phase = .verified then { t with boot.order := [] } else romTry l t
    else romTry l s
  | .h :: l, s => { s with boot.phase := .rom, boot.order := .h :: l, host.ready := true }
  | .l :: l, s => { s with boot.phase := .rom, boot.order := .l :: l }

/-- The order code in force, and whether the fuses give it. -/
def Boot.orderCode (b : Boot) : Nat × Bool :=
  if bit b.bootOrder 3 then (fld b.bootOrder 0 3, true) else (b.straps.bootsel.toNat, false)

/-- REFORDER at reset, by role (Table 11.6). -/
def Straps.refOrder (p : Straps) : List RefSrc := if p.role = 0 ∨ p.role = 2 then [.ridge, .refclk] else [.refclk]

/-- The ROM locks SYS to the first source that is present, in the band of the die's bucket (R288, R292). -/
def romLock (env : RomEnv) (s : State) : State :=
  let (n, s) := s.fresh
  acquire 0 (fin 16 (Config.freeWord n).toNat) <| fillBands 0 { s with
    clk.sysLock := true, clk.actSrc := some env.src, clk.qual := [env.src], clk.family := env.family,
    clk.mrate := baseRate env.family, clk.fallback := false, clk.tickRun := true }

/-- The ROM after its checks of itself and of the fuses. -/
def romStart (env : RomEnv) (s : State) : State :=
  let (c, fuse) := s.boot.orderCode
  if c = 6 ∧ !fuse ∧ !s.boot.testLock then { s with boot.phase := .vendorTest }
  else match bootOrderOf c with
    | none => halt 3 s
    | some l => if env.sysLocks ∧ env.src ∈ s.clk.refOrder then romTry l (romLock env s) else halt 8 s

/-- INTERNAL_RESET_END: the straps are sampled and the ROM starts, or boundary-scan test mode (R396, R446, R453). -/
def execInternalResetEnd (pins : Straps) (env : RomEnv) (s : State) : Out :=
  done <|
    if s.boot.phase ≠ .held then s
    else
      let s := { s with boot.straps := pins, boot.phase := .rom, boot.flash := env.flash, clk.refOrder := Straps.refOrder pins }
      if pins.testmode then { s with boot.phase := .boundaryScan }
      else if !env.selfTest then halt 7 s
      else if !env.fusesOk then halt 9 s
      else romStart env s

/-- BOOT_SOURCE_WAIT_EXPIRY: the next source; the wait on the last one has no limit (Table 15.3). -/
def execBootSourceWaitExpiry (s : State) : Out :=
  done <| match s.boot.phase, s.boot.order with
    | .rom, _ :: y :: l => romTry (y :: l) { s with host.ready := false }
    | _, _ => s

/-! ### Handover: steps 1 to 6 of R415 -/

/-- The entry addresses of the two core sections. -/
def imgEntry (l : List Byte) : Vector Word 2 := vof fun i => wordN (imgSect l i.val).2.2.1

/-- Capo-H at its entry address, the locks, Capo-S, the host domain, the retained record; no transfer of the ROM's is open any more (R412,
R414, R421). -/
def handLocks (s : State) : State :=
  let e := imgEntry s.boot.imgBytes
  { s with boot.phase := .firmware, boot.debugLock := true, boot.fuseLock := true, boot.order := [], fw.handle := .replicate 8 none,
           boot.warm := s.boot.running.map fun r => { digest := imgDigest s.boot.sramH, svn := s.boot.image.svn, src := r, entry := e },
           boot.entry := e[0], sup.capoHRun := true, sup.capoSRun := true, host.ready := true }

/-- The clock settings of a record; MRATE within the family of the reference (R415, R417). -/
def restoreClocks (r : Sealed) (s : State) : State :=
  let c := s.clk
  { s with clk := { c with
      refOrder := r.refOrder, lockWin := r.lock.1, lockN := r.lock.2, holdLim := r.holdLim, syncByFrame := r.sync,
      family := if c.fallback then r.mrate.family else c.family,
      mrate := if c.fallback || r.mrate.family = c.family then r.mrate else c.mrate,
      asn := vmap (fun (a : AsSyn) => { a with lock := false }) r.asn,
      out := vmap (fun (o : ClkOut) => { o with running := false }) r.outs } }

/-- The role of the device on its ring: a manager, or the pair member that R27 prefers, originates, and takes no reference from it (R320, R324,
R328). -/
def startLink (s : State) : State :=
  if s.standalone then s
  else
    let a := s.boot.straps.role = 1 || (s.boot.straps.role = 2 && s.boot.straps.pairId)
    let s := if a && s.clk.actSrc = some .ridge then loseSource .ridge s else s
    if a then { s with link.active := true, link.joined := true, link.originE := .held, link.originW := .held, link.tdist := 0 } else s

/-- Delay memories are cleared, every engine is ordered into TEST for BIST (R62, R415). -/
def startBist (s : State) : State :=
  let s : State := { s with tile := vmap (fun (t : TileMem) => { t with mem := [], ecc := .clean, wb := .replicate 16 none, owner := [] }) s.tile }
  (idx 20).foldl (fun s e => atNext (.engTest e) s) s

/-- The firmware reads its key: step 1 (R413). -/
def readKey (s : State) : State := { s with boot := takeKey s.boot }

/-- The firmware reads the sealed copies: step 4. -/
def readCopies (s : State) : State :=
  if s.keyed then flashWork false (fun f => ((idx 2).filter s.hasCopy).flatMap fun i => Sfdp.read f false (copyOff i) 0x7000) s else s

/-- The handover of a verified image. -/
def handStart (s : State) : State :=
  let s := raise 0x8101 [wordN s.sup.resetCause] (readKey (handLocks s))
  let r := s.record
  let s : State := readCopies { s with boot.cfgRead := r.isSome }
  let s := match r with | some r => restoreClocks r s | none => s
  let s := forIdx 6 fillBands s
  let s := runOuts s.restartable s
  startBist (startLink s)

/-! ### The end of the start: steps 7 and 8 of R415 -/

/-- The program objects of the image's engine section (R401). -/
def imgPrograms (l : List Byte) : List (List Byte) :=
  let (off, size, _, _) := imgSect l 2
  if size = 0 then []
  else (List.range (min 32 (le32 l off))).map fun i =>
    (l.drop (off + le32 l (off + 4 + 8 * i))).take (le32 l (off + 8 + 8 * i))

/-- A default program starts in its group. One that fails a check of Table 04.8, or finds no engine or no room, is left out without a
report: no event of Table 14.13 carries one (DESIGN CHOICE, log 135). -/
def startDefault (l : List Byte) (s : State) : State :=
  match loaded l s.clk.mrate.budget with
  | none => s
  | some p =>
    if 16 ≤ p.defgrp then s
    else
      let g := fin 16 p.defgrp
      if s.starting.contains g then s
      else match s.directSpare with
        | none => s
        | some e => match loadLive e g p s with
          | some t => atNext (.start g e) t
          | none => s

/-- The entries that restore routes: column settings first, then targets (R182). -/
def restoreEntries (r : Sealed) : List BatchEntry :=
  let e (k row col : Nat) (v : Int) : BatchEntry := { kind := k, row := row, col := col, val := v }
  ((idx 256).flatMap fun c =>
    let x := r.cols[c]
    [e 4 0 c.val x.rc, e 5 0 c.val (match x.mode with | .off => 0 | .inv => 1 | .invSqrt => 2), e 2 0 c.val x.hostA, e 3 0 c.val x.hostB])
  ++ (r.xp.flatMap fun x => [e 0 (x.1 / 256) (x.1 % 256) x.2.a, e 1 (x.1 / 256) (x.1 % 256) x.2.b])

/-- A generator as it was saved, at the start of its run. -/
def Gen.restored (g : Gen) : Gen :=
  if g.stopping then .stopped
  else { g with struck := none, ran := 0, parts := g.parts.map fun p => { p with phase := 0, a0 := p.a1, j := 64 } }

/-- The settings of a record's rail; what runs is not restored. -/
def Rail.restored (r x : Rail) : Rail :=
  { x with mode := r.mode, vmax := r.vmax, vidle := r.vidle, headroom := r.headroom, ratio := r.ratio, bilim := r.bilim }

/-- Ports, routes, policies, channels and credential of a record. -/
def restoreRest (r : Sealed) (s : State) : State :=
  let (twin, raise, restart, hours, kaInt, kaQuiet) := r.policy
  let s : State := { s with
    port := vof fun p => { s.port[p] with cfg := r.ports[p].1, masks := r.ports[p].2.1 },
    mtx.rows := r.rows, mtx.rp := r.rp, mtx.armed := r.armed, gen := vmap Gen.restored r.gens,
    fw.zone := vmap (fun (z : Zone) => { z with reads := [], gain := 0, stale := false, falling := false }) r.zones,
    fw.twinOn := twin, fw.raise := raise, fw.restartOn := restart, fw.migrHours := hours, fw.kaInt := kaInt, fw.kaQuiet := kaQuiet,
    pcd.ch := vof fun c => { s.pcd.ch[c] with cfg := r.chans[c].1, zSig := r.chans[c].2.1 },
    pcd.rail := vof fun n => Rail.restored r.rails[n] s.pcd.rail[n],
    pcd.tFoldDie := r.dieT.1, pcd.tStopDie := r.dieT.2, boot.cred := r.cred }
  let s := atNext (.batch (restoreEntries r)) (rebind s)
  forIdx 12 (fun p s => if r.ports[p].2.2 then startPort p s else s) s

/-- The channels that a record holds as started. -/
def restartChans (r : Sealed) (s : State) : State := forIdx 16 (fun c s => if r.chans[c].2.2 then startCh c s else s) s

/-- Steps 7 and 8: programs, ENG_RUN, ports, routes and policies, the PCD and the quiet state. -/
def finishStart (s : State) : State :=
  let r := s.record
  let s := (imgPrograms s.boot.imgBytes).foldl (fun s l => startDefault l s) s
  let s : State := { s with sup.engRun := true }
  let s := match r with | some r => restoreRest r s | none => s
  let s := clearQuiet 1 { s with sup.pcdReleased := true, fw.started := true }
  match r with | some r => restartChans r s | none => s

/-- The BIST of the start is over. -/
def State.bistOver (s : State) : Bool :=
  s.boot.phase = .firmware && !s.fw.started && !s.sup.restarting && s.eng.toList.all (fun (x : Engine) => x.st ≠ .test)
    && !s.fw.sched.any fun e => match e.change with | .engTest _ => true | _ => false

/-- TICK_BOUNDARY (R18): it happens only while the tick runs; the start goes on once the last engine has left BIST, and a restarted Capo-H
has read its LIVE engines back (log 115); a device on its way into deep sleep goes on with it (log 48). -/
def execTickBoundary (laneErr : Int) (upset : List (Fin 131072 × XpPart)) (s : State) : Out :=
  done <|
    let s := upsetXp upset s
    if s.clk.tickRun then
      let t := tickAll laneErr s
      let t : State := { t with fw.reading := false }
      sleepStep (if t.bistOver then finishStart t else t)
    else s

/-- The 64 ticks of a fault that came while Capo-H restarted count from FW_RESTART (R439). -/
def restartsFrom (now : Word) (y : Group) : Group :=
  { y with waiting := y.waiting.map fun r => if r.down then { r with tick := now, down := false } else r }

/-- A restarted Capo-H hands over when the record matches the placed sections; FW_RESTART takes a place of its own as its first event (R368,
R421, log 115). -/
def handAgain (s : State) : State :=
  match s.boot.warm, s.warmMatch with
  | some r, true =>
    let s : State := { s with
      sup.restarting := false, sup.capoHRun := true, sup.capoSRun := true, sup.resetCause := causeWatchdog,
      boot.entry := r.entry[0], boot.svn := some r.svn, boot.keyClear := false, fw.reading := s.fw.started && s.clk.tickRun, grp := vmap (restartsFrom s.clk.tick) s.grp }
    let s := s.modQ 2 (mkEvent s 0x8101 [wordN causeWatchdog] :: ·)
    let s := readKey (placeCores s.boot.sramH s)
    if s.bistOver then finishStart s else s
  | _, _ => deviceReset causeResetN s

/-- HANDOVER (R412, R421). -/
def execHandover (s : State) : Out :=
  done <|
    if s.boot.phase = .verified then handStart s
    else if s.boot.phase = .firmware ∧ s.sup.restarting then handAgain s
    else s

/-! ### Trials (R407, R408) -/

/-- TRIAL_WATCHDOG_EXPIRY: a reset with its own cause. -/
def execTrialWatchdogExpiry (s : State) : Out :=
  done <| if s.boot.trialWd.isSome then deviceReset causeTrial s else s

/-- What must have held for 5 s. -/
def State.selfHealthy (s : State) : Bool :=
  s.boot.trial && s.boot.image.autoconf && s.boot.phase = .firmware && !s.sup.restarting && s.sup.capoSRun && s.clk.sysLock
    && s.eng.toList.all (fun (x : Engine) => !x.retired) && (s.boot.cfgRead || s.record.isNone)

/-- SELF_CONFIRM; a directory that cannot be written leaves the trial unconfirmed. -/
def execSelfConfirm (s : State) : Out := done <| if s.selfHealthy then (confirmTrial s).getD s else s

/-! ### Deep sleep -/

/-- The pin may wake the device. -/
def wakes (mask : BitVec 2) : WakePin → Bool
  | .hsel => bit mask 0
  | .gpio0 => bit mask 1

/-- The SVN of the retained record. -/
def Boot.warmSvn (b : Boot) : Option Byte := b.warm.map (·.svn)

/-- WAKE: the retained image is handed over, or the full path follows (R421, R422). -/
def execWake (pin : WakePin) (s : State) : Out :=
  done <|
    if s.boot.phase = .sleeping ∧ wakes s.boot.wakeMask pin then
      let s : State := { s with sup.resetCause := causeWake, clk.refOrder := Straps.refOrder s.boot.straps }
      if s.warmMatch then placeCores s.boot.sramH { s with boot.phase := .verified, boot.svn := s.boot.warmSvn }
      else
        let s : State := { s with boot.retFailed := true, boot.running := none }
        match bootOrderOf s.boot.orderCode.1 with
        | some l => romTry l s
        | none => halt 3 s
    else s

/-! ### Watchdogs (R438) -/

/-- CAPO_H_WATCHDOG: Capo-S resets Capo-H alone. -/
def execCapoHWatchdog (s : State) : Out :=
  done <| if s.boot.phase = .firmware ∧ !s.sup.restarting then capoHReset { s with sup.resetCause := causeWatchdog } else s

/-- CAPO_S_WATCHDOG: the quiet state; Capo-H releases Capo-S again while it runs. -/
def execCapoSWatchdog (s : State) : Out :=
  done <| if s.boot.phase = .firmware ∧ s.sup.capoSRun then setQuiet 0x20 { s with sup.capoSRun := s.sup.capoHRun } else s

/-- TICK_WATCHDOG: no boundary for 4 tick periods while SYS runs. -/
def execTickWatchdog (s : State) : Out :=
  done <| if s.boot.phase = .firmware ∧ !s.clk.fallback then setQuiet 0x40 s else s

/-- QUIET_CAUSE_CLEAR_TIMER: the condition of Table 17.4 has held for 1 s. -/
def execQuietCauseClearTimer (i : Fin 7) (s : State) : Out :=
  done <|
    if i = 4 ∧ s.clk.sysLock ∧ !s.clk.fallback then clearQuiet 0x10 s
    else if i = 5 ∧ s.sup.capoSRun then clearQuiet 0x20 s
    else if i = 6 ∧ s.clk.tickRun then clearQuiet 0x40 s
    else s

/-! ### Debug, fuses, boundary scan -/

/-- The die has power and is out of reset, outside boundary-scan test mode. -/
def State.reachable (s : State) : Bool :=
  s.boot.phase ≠ .held && s.boot.phase ≠ .sleeping && s.boot.phase ≠ .boundaryScan

/-- JTAG_DEBUG_ACCESS while it is open costs every key until the next reset (R413, R414). -/
def execJtagDebugAccess (s : State) : Out :=
  done <| if s.reachable ∧ !s.boot.debugDisable ∧ !s.boot.debugLock then { s with boot.jtag := true } else s

/-- A fuse field is programmed; a programmed bit stays (R395). -/
def fuse (op : FuseOp) (b : Boot) : Boot :=
  match op with
  | .kh i h => if b.kh[i].isNone ∧ !b.khLock then { b with kh := b.kh.set i.val (some h) } else b
  | .revoke i => { b with revoke := b.revoke ||| BitVec.ofNat 4 (2 ^ i.val) }
  | .bootOrder c => if b.orderLock then b else { b with bootOrder := b.bootOrder ||| c }
  | .debugDisable => { b with debugDisable := true }
  | .khLock => { b with khLock := true }
  | .orderLock => { b with orderLock := true }
  | .testLock => { b with testLock := true }

/-- FUSE_PROGRAMMING through the fuse port, open until the firmware's fuse lock (R396, R414). -/
def execFuseProgramming (op : FuseOp) (s : State) : Out :=
  done <| if s.reachable ∧ !s.boot.fuseLock then { s with boot := fuse op s.boot } else s

/-- BOUNDARY_SCAN_INSTRUCTION (R446). -/
def execBoundaryScanInstruction (i : Jtag) (s : State) : Out :=
  done <| if s.boot.phase = .boundaryScan then { s with boot.jtagIr := i } else s

end Sys2Proof.Machine
end

