-- ==== Sys2Proof/Machine/Dispatch.lean ====
section
/-! DEFINITION. exec: one arm per command, each one call of its meaning. -/
namespace Sys2Proof.Machine
open Sys2Proof

def exec (i : Instr) (s : State) : Host.Outcome State Fault Refusal :=
  match i with
  | .tickBoundary laneErr upset => Sys2Proof.Machine.execTickBoundary laneErr upset s
  | .checkPatternReplace pattern => Sys2Proof.Machine.execCheckPatternReplace pattern s
  | .matrixParityScan => Sys2Proof.Machine.execMatrixParityScan s
  | .matrixResume => Sys2Proof.Machine.execMatrixResume s
  | .packetIssue e => Sys2Proof.Machine.execPacketIssue e s
  | .unitResult e => Sys2Proof.Machine.execUnitResult e s
  | .delayBankGrant t bank => Sys2Proof.Machine.execDelayBankGrant t bank s
  | .eccWriteBack m => Sys2Proof.Machine.execEccWriteBack m s
  | .endWindow bist => Sys2Proof.Machine.execEndWindow bist s
  | .auditionPass g => Sys2Proof.Machine.execAuditionPass g s
  | .auditionStart g => Sys2Proof.Machine.execAuditionStart g s
  | .auditionTimeout g => Sys2Proof.Machine.execAuditionTimeout g s
  | .crossfadeEnd g => Sys2Proof.Machine.execCrossfadeEnd g s
  | .commitGroupReady n => Sys2Proof.Machine.execCommitGroupReady n s
  | .bankCopyComplete g => Sys2Proof.Machine.execBankCopyComplete g s
  | .restartSpareWaitExpiry g => Sys2Proof.Machine.execRestartSpareWaitExpiry g s
  | .bistComplete e passed => Sys2Proof.Machine.execBistComplete e passed s
  | .scrub => Sys2Proof.Machine.execScrub s
  | .regionClearComplete e => Sys2Proof.Machine.execRegionClearComplete e s
  | .sweepEnd j => Sys2Proof.Machine.execSweepEnd j s
  | .frameReceived p f => Sys2Proof.Machine.execFrameReceived p f s
  | .transmitFrameStart p => Sys2Proof.Machine.execTransmitFrameStart p s
  | .clockStop p => Sys2Proof.Machine.execClockStop p s
  | .clockReturn p => Sys2Proof.Machine.execClockReturn p s
  | .marginWindow p margin rateErr => Sys2Proof.Machine.execMarginWindow p margin rateErr s
  | .aesBlockCapture p ch => Sys2Proof.Machine.execAesBlockCapture p ch s
  | .pdmSampleComplete m bits => Sys2Proof.Machine.execPdmSampleComplete m bits s
  | .micEnableHoldExpiry m => Sys2Proof.Machine.execMicEnableHoldExpiry m s
  | .micStuckDetect m => Sys2Proof.Machine.execMicStuckDetect m s
  | .micRecovery m => Sys2Proof.Machine.execMicRecovery m s
  | .saddleRateWindow x estimate => Sys2Proof.Machine.execSaddleRateWindow x estimate s
  | .saddleRelock x => Sys2Proof.Machine.execSaddleRelock x s
  | .prioNSample high => Sys2Proof.Machine.execPrioNSample high s
  | .muteNChange high => Sys2Proof.Machine.execMuteNChange high s
  | .pcdStreamWatchdog gap refClock => Sys2Proof.Machine.execPcdStreamWatchdog gap refClock s
  | .carrierPeriod c bstLowA bstLowB => Sys2Proof.Machine.execCarrierPeriod c bstLowA bstLowB s
  | .railReading r code => Sys2Proof.Machine.execRailReading r code s
  | .boostPeriod r senseUv vbatsMv => Sys2Proof.Machine.execBoostPeriod r senseUv vbatsMv s
  | .railRecovery r => Sys2Proof.Machine.execRailRecovery r s
  | .feedbackLost r => Sys2Proof.Machine.execFeedbackLost r s
  | .boostOverload r => Sys2Proof.Machine.execBoostOverload r s
  | .diagnosticComplete c v => Sys2Proof.Machine.execDiagnosticComplete c v s
  | .currentLimit c halfB shuntUv step => Sys2Proof.Machine.execCurrentLimit c halfB shuntUv step s
  | .retryIntervalExpiry c => Sys2Proof.Machine.execRetryIntervalExpiry c s
  | .dcDetection c => Sys2Proof.Machine.execDcDetection c s
  | .digitalDcMute c => Sys2Proof.Machine.execDigitalDcMute c s
  | .dcMuteReport c => Sys2Proof.Machine.execDcMuteReport c s
  | .dcMuteRestore c => Sys2Proof.Machine.execDcMuteRestore c s
  | .thermalReading t => Sys2Proof.Machine.execThermalReading t s
  | .lineSupervisionWindow c z => Sys2Proof.Machine.execLineSupervisionWindow c z s
  | .pcdSupplyLow => Sys2Proof.Machine.execPcdSupplyLow s
  | .pcdSupplyRestored => Sys2Proof.Machine.execPcdSupplyRestored s
  | .referenceLost src => Sys2Proof.Machine.execReferenceLost src s
  | .sourceQualified src => Sys2Proof.Machine.execSourceQualified src s
  | .preferredSourceSwitch src => Sys2Proof.Machine.execPreferredSourceSwitch src s
  | .synthesizerLock lnk bucket => Sys2Proof.Machine.execSynthesizerLock lnk bucket s
  | .synthesizerUnlock lnk => Sys2Proof.Machine.execSynthesizerUnlock lnk s
  | .asLock n locked bucket => Sys2Proof.Machine.execAsLock n locked bucket s
  | .clkoutRestart => Sys2Proof.Machine.execClkoutRestart s
  | .syncEdge => Sys2Proof.Machine.execSyncEdge s
  | .bandBucketMove y bucket => Sys2Proof.Machine.execBandBucketMove y bucket s
  | .holdoverLimit => Sys2Proof.Machine.execHoldoverLimit s
  | .fallback => Sys2Proof.Machine.execFallback s
  | .refReturn src e diff bucket => Sys2Proof.Machine.execRefReturn src e diff bucket s
  | .ridgeFrame f => Sys2Proof.Machine.execRidgeFrame f s
  | .portDown p lane heads => Sys2Proof.Machine.execPortDown p lane heads s
  | .portUp p lane heads => Sys2Proof.Machine.execPortUp p lane heads s
  | .ringBreak p => Sys2Proof.Machine.execRingBreak p s
  | .rejoin => Sys2Proof.Machine.execRejoin s
  | .segmentFormation devs segid counterAt anew => Sys2Proof.Machine.execSegmentFormation devs segid counterAt anew s
  | .failover => Sys2Proof.Machine.execFailover s
  | .twinCompensation quiet mask => Sys2Proof.Machine.execTwinCompensation quiet mask s
  | .routeRestore id lat => Sys2Proof.Machine.execRouteRestore id lat s
  | .prbsDetect p lane => Sys2Proof.Machine.execPrbsDetect p lane s
  | .nop cmd clocks => Sys2Proof.Machine.execNop cmd clocks s
  | .write addr data clocks => Sys2Proof.Machine.execWrite addr data clocks s
  | .read addr clocks => Sys2Proof.Machine.execRead addr clocks s
  | .status clocks => Sys2Proof.Machine.execStatus clocks s
  | .chainFrameExecute through stage => Sys2Proof.Machine.execChainFrameExecute through stage s
  | .chainFrameDiscard clocks => Sys2Proof.Machine.execChainFrameDiscard clocks s
  | .syscntLo => Sys2Proof.Machine.execSyscntLo s
  | .go b len => Sys2Proof.Machine.execGo b len s
  | .ack b => Sys2Proof.Machine.execAck b s
  | .hostReset => Sys2Proof.Machine.execHostReset s
  | .inten v => Sys2Proof.Machine.execInten v s
  | .registerWrite addr v => Sys2Proof.Machine.execRegisterWrite addr v s
  | .intsrcEvent bit => Sys2Proof.Machine.execIntsrcEvent bit s
  | .messageConsume b => Sys2Proof.Machine.execMessageConsume b s
  | .outboundSend b => Sys2Proof.Machine.execOutboundSend b s
  | .capoHReset => Sys2Proof.Machine.execCapoHReset s
  | .keepaliveLapse => Sys2Proof.Machine.execKeepaliveLapse s
  | .bulkFragment m => Sys2Proof.Machine.execBulkFragment m s
  | .sysInfo m => Sys2Proof.Machine.execSysInfo m s
  | .sysStatus m => Sys2Proof.Machine.execSysStatus m s
  | .sysQuiet m => Sys2Proof.Machine.execSysQuiet m s
  | .sysKeepalive m => Sys2Proof.Machine.execSysKeepalive m s
  | .sysXferOpen m => Sys2Proof.Machine.execSysXferOpen m s
  | .sysXferDrop m => Sys2Proof.Machine.execSysXferDrop m s
  | .sysSave m => Sys2Proof.Machine.execSysSave m s
  | .sysSleep m => Sys2Proof.Machine.execSysSleep m s
  | .sysReset m => Sys2Proof.Machine.execSysReset m s
  | .sysCntclr m => Sys2Proof.Machine.execSysCntclr m s
  | .clkSet m => Sys2Proof.Machine.execClkSet m s
  | .clkGet m => Sys2Proof.Machine.execClkGet m s
  | .clkOutstart m => Sys2Proof.Machine.execClkOutstart m s
  | .clkOutstop m => Sys2Proof.Machine.execClkOutstop m s
  | .clkAs m => Sys2Proof.Machine.execClkAs m s
  | .clkStatus m => Sys2Proof.Machine.execClkStatus m s
  | .portSet m => Sys2Proof.Machine.execPortSet m s
  | .portGet m => Sys2Proof.Machine.execPortGet m s
  | .portStart m => Sys2Proof.Machine.execPortStart m s
  | .portStop m => Sys2Proof.Machine.execPortStop m s
  | .portMask m => Sys2Proof.Machine.execPortMask m s
  | .portStatus m => Sys2Proof.Machine.execPortStatus m s
  | .portAesGet m => Sys2Proof.Machine.execPortAesGet m s
  | .portAesSet m => Sys2Proof.Machine.execPortAesSet m s
  | .portMic m => Sys2Proof.Machine.execPortMic m s
  | .portLoop m => Sys2Proof.Machine.execPortLoop m s
  | .mtxBatch m => Sys2Proof.Machine.execMtxBatch m s
  | .mtxBatchh m => Sys2Proof.Machine.execMtxBatchh m s
  | .mtxRead m => Sys2Proof.Machine.execMtxRead m s
  | .mtxColread m => Sys2Proof.Machine.execMtxColread m s
  | .mtxArm m => Sys2Proof.Machine.execMtxArm m s
  | .mtxGen m => Sys2Proof.Machine.execMtxGen m s
  | .mtxStrike m => Sys2Proof.Machine.execMtxStrike m s
  | .mtxSaddle m => Sys2Proof.Machine.execMtxSaddle m s
  | .engStart m => Sys2Proof.Machine.execEngStart m s
  | .engRemove m => Sys2Proof.Machine.execEngRemove m s
  | .engAudition m => Sys2Proof.Machine.execEngAudition m s
  | .engConfirm m => Sys2Proof.Machine.execEngConfirm m s
  | .engAbort m => Sys2Proof.Machine.execEngAbort m s
  | .engStatus m => Sys2Proof.Machine.execEngStatus m s
  | .engClear m => Sys2Proof.Machine.execEngClear m s
  | .engTest m => Sys2Proof.Machine.execEngTest m s
  | .engAudstatus m => Sys2Proof.Machine.execEngAudstatus m s
  | .tuneWrite m => Sys2Proof.Machine.execTuneWrite m s
  | .tuneWriteh m => Sys2Proof.Machine.execTuneWriteh m s
  | .tuneRead m => Sys2Proof.Machine.execTuneRead m s
  | .tuneSwap m => Sys2Proof.Machine.execTuneSwap m s
  | .pwrSet m => Sys2Proof.Machine.execPwrSet m s
  | .pwrGet m => Sys2Proof.Machine.execPwrGet m s
  | .pwrStart m => Sys2Proof.Machine.execPwrStart m s
  | .pwrStop m => Sys2Proof.Machine.execPwrStop m s
  | .pwrLearn m => Sys2Proof.Machine.execPwrLearn m s
  | .pwrStatus m => Sys2Proof.Machine.execPwrStatus m s
  | .pwrRestart m => Sys2Proof.Machine.execPwrRestart m s
  | .pwrDiag m => Sys2Proof.Machine.execPwrDiag m s
  | .linkStatus m => Sys2Proof.Machine.execLinkStatus m s
  | .linkGrant m => Sys2Proof.Machine.execLinkGrant m s
  | .linkTx m => Sys2Proof.Machine.execLinkTx m s
  | .linkTap m => Sys2Proof.Machine.execLinkTap m s
  | .linkTwin m => Sys2Proof.Machine.execLinkTwin m s
  | .linkUntwin m => Sys2Proof.Machine.execLinkUntwin m s
  | .linkAdmit m => Sys2Proof.Machine.execLinkAdmit m s
  | .linkRelease m => Sys2Proof.Machine.execLinkRelease m s
  | .linkPrbs m => Sys2Proof.Machine.execLinkPrbs m s
  | .linkCfg m => Sys2Proof.Machine.execLinkCfg m s
  | .graphSubmit m => Sys2Proof.Machine.execGraphSubmit m s
  | .graphClear m => Sys2Proof.Machine.execGraphClear m s
  | .fwInfo m => Sys2Proof.Machine.execFwInfo m s
  | .fwUpdate m => Sys2Proof.Machine.execFwUpdate m s
  | .fwConfirm m => Sys2Proof.Machine.execFwConfirm m s
  | .fwReboot m => Sys2Proof.Machine.execFwReboot m s
  | .secStatus m => Sys2Proof.Machine.execSecStatus m s
  | .secRevoke m => Sys2Proof.Machine.execSecRevoke m s
  | .secCred m => Sys2Proof.Machine.execSecCred m s
  | .periXfer m => Sys2Proof.Machine.execPeriXfer m s
  | .evtEnable m => Sys2Proof.Machine.execEvtEnable m s
  | .evtCount m => Sys2Proof.Machine.execEvtCount m s
  | .evtClear m => Sys2Proof.Machine.execEvtClear m s
  | .polZone m => Sys2Proof.Machine.execPolZone m s
  | .polNoise m => Sys2Proof.Machine.execPolNoise m s
  | .polTherm m => Sys2Proof.Machine.execPolTherm m s
  | .polTwin m => Sys2Proof.Machine.execPolTwin m s
  | .polMigr m => Sys2Proof.Machine.execPolMigr m s
  | .polKeepalive m => Sys2Proof.Machine.execPolKeepalive m s
  | .polStatus m => Sys2Proof.Machine.execPolStatus m s
  | .maintenanceMigration => Sys2Proof.Machine.execMaintenanceMigration s
  | .noiseReading z => Sys2Proof.Machine.execNoiseReading z s
  | .noiseGainStep z => Sys2Proof.Machine.execNoiseGainStep z s
  | .noiseSourceStale z => Sys2Proof.Machine.execNoiseSourceStale z s
  | .staleHoldExpiry z => Sys2Proof.Machine.execStaleHoldExpiry z s
  | .queueEntry io => Sys2Proof.Machine.execQueueEntry io s
  | .prdyTimeout => Sys2Proof.Machine.execPrdyTimeout s
  | .heldRunExpiry => Sys2Proof.Machine.execHeldRunExpiry s
  | .resetN lowNs => Sys2Proof.Machine.execResetN lowNs s
  | .supplyLow => Sys2Proof.Machine.execSupplyLow s
  | .internalResetEnd pins env => Sys2Proof.Machine.execInternalResetEnd pins env s
  | .bootSourceWaitExpiry => Sys2Proof.Machine.execBootSourceWaitExpiry s
  | .handover => Sys2Proof.Machine.execHandover s
  | .trialWatchdogExpiry => Sys2Proof.Machine.execTrialWatchdogExpiry s
  | .selfConfirm => Sys2Proof.Machine.execSelfConfirm s
  | .wake pin => Sys2Proof.Machine.execWake pin s
  | .capoHWatchdog => Sys2Proof.Machine.execCapoHWatchdog s
  | .capoSWatchdog => Sys2Proof.Machine.execCapoSWatchdog s
  | .tickWatchdog => Sys2Proof.Machine.execTickWatchdog s
  | .quietCauseClearTimer bit => Sys2Proof.Machine.execQuietCauseClearTimer bit s
  | .moduleLossOfSignal p asserted => Sys2Proof.Machine.execModuleLossOfSignal p asserted s
  | .prdySampledHigh io => Sys2Proof.Machine.execPrdySampledHigh io s
  | .faultedEngineReadout e retire => Sys2Proof.Machine.execFaultedEngineReadout e retire s
  | .jtagDebugAccess => Sys2Proof.Machine.execJtagDebugAccess s
  | .fuseProgramming op => Sys2Proof.Machine.execFuseProgramming op s
  | .boundaryScanInstruction j => Sys2Proof.Machine.execBoundaryScanInstruction j s

end Sys2Proof.Machine
end

