-- ==== Sys2Proof/Safety.lean ====
section
/-! DEFINITION. The terms in which claims are stated: a command that completes with an effect, the invariants of STAT and of the
memories, and when a firmware command is served. -/
namespace Sys2Proof.Machine
open Sys2Proof

/-- The command is executed, and P holds of the next state. -/
def Completes (c : Instr) (s : State) (P : State → Prop) : Prop := ∃ t, exec c s = .next t ∧ P t

/-- The parts of the state that a frame names. -/
inductive Part where
  | clk | sup | boot | hostRegs | mbi | mbo | resp | events | fw | eng | tile | grp | mtx | gen | sad | port | mic | pcd | link | peri
  | pending
deriving DecidableEq, Repr

/-- A part is the same in both states. STAT and INTSRC follow the rest of the state and belong to no part; HDO and the response stage of a
chain belong to none either. `resp` is the queues of responses and bulk data and the places kept in them, `events` what events enter, `fw`
the rest of the firmware's state. -/
def SameAt (s t : State) : Part → Prop
  | .clk => t.clk = s.clk
  | .sup => { t.sup with stat := s.sup.stat } = s.sup
  | .boot => t.boot = s.boot
  | .hostRegs => t.host.ready = s.host.ready ∧ t.host.badcmd = s.host.badcmd ∧ t.host.addrOvr = s.host.addrOvr ∧
      t.host.cfgerr = s.host.cfgerr ∧ t.host.sysHi = s.host.sysHi ∧ t.host.tickLat = s.host.tickLat ∧
      t.host.frameLat = s.host.frameLat ∧ t.host.inten = s.host.inten ∧ t.host.scratch = s.host.scratch
  | .mbi => t.host.mbi = s.host.mbi
  | .mbo => t.host.mbo = s.host.mbo
  | .resp => t.fw.q[0] = s.fw.q[0] ∧ t.fw.q[1] = s.fw.q[1] ∧ t.fw.q[3] = s.fw.q[3] ∧ t.fw.mirrorWait = s.fw.mirrorWait ∧ t.fw.line = s.fw.line
  | .events => t.fw.q[2] = s.fw.q[2] ∧ t.fw.loss = s.fw.loss ∧ t.fw.lostHeld = s.fw.lostHeld
  | .fw => { t.fw with q := s.fw.q, loss := s.fw.loss, lostHeld := s.fw.lostHeld, mirrorWait := s.fw.mirrorWait, line := s.fw.line } = s.fw
  | .eng => t.eng = s.eng
  | .tile => t.tile = s.tile
  | .grp => t.grp = s.grp
  | .mtx => t.mtx = s.mtx
  | .gen => t.gen = s.gen
  | .sad => t.sad = s.sad
  | .port => t.port = s.port
  | .mic => t.mic = s.mic
  | .pcd => t.pcd = s.pcd
  | .link => t.link = s.link
  | .peri => t.peri = s.peri
  | .pending => t.pending = s.pending

/-- Every part outside a list is the same: the frame of a command. -/
def Outside (l : List Part) (s t : State) : Prop := ∀ p, p ∉ l → SameAt s t p

/-- STAT[3:0] shows the code of Tables 15.10 and 17.5 (R442). -/
def StatShown (s : State) : Prop := s.sup.stat = s.statCode

/-- Every memory that the state holds is in canonical form: the delay memories of the tiles, the P and D memories and both
parameter arrays of the engines, the array that a waiting fault restart keeps, and the snapshots. -/
structure MemoriesSound (s : State) : Prop where
  tile : ∀ t : TileId, s.tile[t].mem.wf = true
  p    : ∀ e : EngId, s.eng[e].p.wf = true
  d    : ∀ e : EngId, s.eng[e].d.wf = true
  par  : ∀ e : EngId, s.eng[e].par0.wf = true ∧ s.eng[e].par1.wf = true
  live : ∀ g : GrpId, ∀ r, s.grp[g].waiting = some r → r.live.wf = true
  snap : s.mtx.snap.wf = true
  hist : ∀ m ∈ s.mtx.hist, m.wf = true

/-- The clocks once a port has left RUN: the source that its frames gave has to qualify again (R286, R287). -/
def clkWithout (p : PortId) (s : State) : Clk :=
  match portSrc p with
  | some r => { s.clk with qual := s.clk.qual.filter fun x => x ≠ r }
  | none => s.clk

/-- The port does not feed the active source. -/
def NoFeed (p : PortId) (s : State) : Prop := ∀ r, portSrc p = some r → s.clk.actSrc ≠ some r

/-- RIDGE is not lost when ring port p goes down: the device neither follows it nor has it qualified, or another ring port carries a
path (R326). -/
def KeepsRidge (p : RidgeId) (s : State) : Prop :=
  (s.clk.actSrc ≠ some .ridge ∧ s.clk.qual.contains .ridge = false) ∨ ∃ k : RidgeId, k ≠ 2 ∧ k ≠ p ∧ (s.link.ports[k]).dist ≠ 255

/-- The firmware runs and has finished its start, or the reading back of a restart, and no other device has a part in what it executes:
the device is not the active manager, or one without a standby that is no twin; and no command of MBO0 waits for its response. -/
structure Serving (s : State) : Prop where
  phase    : s.boot.phase = .firmware
  started  : s.fw.started = true
  read     : s.fw.reading = false
  running  : s.sup.restarting = false
  answered : s.fw.line = []
  alone    : s.link.active = false ∨ (s.link.paired = false ∧ ∀ p : Fin 32, s.link.pos = some p → s.twinOf p.val = none)

/-- A message on MBI0 that asks the command with this code of this device, now and not at a frame: DIR, AT, FWD and DEST are 0,
W1 is 0, LEN is at least `len`, and the words from word `tail` up to W(LEN−1) are 0; the response queue has room. -/
structure Request (code len tail : Nat) (m : Msg) (s : State) : Prop where
  box  : m.box = 0
  code : cmdOf m = code
  head : fld m.w[0] 24 8 = 0
  w1   : mword m 1 = 0
  len  : len ≤ m.len.toNat
  tail : ∀ i, tail ≤ i → i < m.len.toNat → mword m i = 0
  room : s.fw.q[0].length < 32

/-- Every message that asks a command of a serving device and whose fields satisfy `pre` is answered OK with the results `ws` at
the end of the queue of MBO0, and P holds of the next state. -/
def Answers (c : Msg → Instr) (code len tail : Nat) (s : State) (pre : Msg → Prop) (ws : Msg → List Word)
    (P : Msg → State → Prop) : Prop :=
  ∀ m, Request code len tail m s → pre m →
    ∃ t, exec (c m) s = .next t ∧ t.fw.q[0] = s.fw.q[0] ++ [answer m 0 0 (ws m)] ∧ P m t

end Sys2Proof.Machine
end

