-- ==== Sys2Proof/Certificates/Slice0/Obligations.lean ====
section
/-! DEFINITION. The statements for the provers. -/
open Sys2Proof Sys2Proof.Machine

/-! ### 13, 19: the host port -/

/-- The single register accesses of an open host port: INTEN, the counter latches, the write-1-to-clear flags of HSTATUS and
INTSRC, SCRATCH, read-only and unassigned words, and an address above 0xFFF; a hardware event sets its INTSRC bit whatever
INTEN and READY are. Nothing else changes (R353, R471, R476, R478, R480, R352). -/
def Obligations.RegisterAccess : Prop :=
  ∀ s : State,
    (∀ i, exec (.intsrcEvent i) s = .next { s with host.intsrc := s.host.intsrc ||| BitVec.ofNat 6 (2 ^ i.val) }) ∧
    (s.host.ready = true →
      (∀ v, exec (.inten v) s = .next { s with host.inten := v.truncate 6 }) ∧
      exec .syscntLo s = .next { s with host.sysHi := (s.clk.sysCnt >>> 32).truncate 32, host.tickLat := s.clk.tick,
                                        host.frameLat := s.clk.frame } ∧
      (∀ v, exec (.registerWrite 0x00F v) s = .next { s with host.scratch := v }) ∧
      (∀ v, exec (.registerWrite 0x008 v) s = .next { s with host.intsrc := s.host.intsrc &&& ~~~(v.truncate 6) }) ∧
      (∀ v, exec (.registerWrite 0x004 v) s = .next
        { s with host.badcmd := s.host.badcmd && !v.getLsbD 3, host.addrOvr := s.host.addrOvr && !v.getLsbD 4,
                 host.cfgerr := s.host.cfgerr && !v.getLsbD 8 }) ∧
      (∀ a v, (a.toNat ≤ 3 ∨ a = 6 ∨ a = 7 ∨ 0x00A ≤ a.toNat ∧ a.toNat ≤ 0x00E ∨ 0x010 ≤ a.toNat ∧ a.toNat < 0x100 ∨
          0x200 ≤ a.toNat ∧ a.toNat < 0x1000) → exec (.registerWrite a v) s = .next s) ∧
      (∀ a v, 0x1000 ≤ a.toNat → exec (.registerWrite a v) s = .next
        { s with host.addrOvr := true, host.intsrc := if s.host.addrOvr then s.host.intsrc else s.host.intsrc ||| 4 }))

/-- An inbound mailbox: while GO is 0, word writes land, a CTL write with GO = 0 has no effect, a GO with a LEN from 8 to 16 sends the
message and one with another LEN sets BADLEN and CFGERR; while GO is 1, every write to W0–W15 and to CTL is discarded and sets BUSYWR; in
the very core cycle in which the tunnel placed the message a word write lands instead. An ACK to an outbound mailbox clears GO, and with
GO = 0 it sets ACKERR. A sticky flag that rises sets INTSRC.HOSTERR (R358, R359, R362, R363, R366, R476; that no cycle has passed since
the placement is log 147). -/
def Obligations.MailboxControl : Prop :=
  ∀ (s : State) (b : BoxId) (len : BitVec 5) (v : Word), s.host.ready = true →
    (s.host.mbi[b].go = false →
      (∀ i : Fin 16, exec (.registerWrite (BitVec.ofNat 16 (0x100 + 32 * b.val + i.val)) v) s =
        .next (s.modMbi b fun m => { m with w := m.w.set i.val v, placed := none })) ∧
      (v.getLsbD 8 = false → exec (.registerWrite (BitVec.ofNat 16 (0x110 + 32 * b.val)) v) s = .next s) ∧
      (8 ≤ len.toNat → len.toNat ≤ 16 →
        exec (.go b len) s = .next (s.modMbi b fun m => { m with go := true, len := len, placed := none }))) ∧
    (s.host.mbi[b].go = false → (len.toNat < 8 ∨ 16 < len.toNat) → Completes (.go b len) s fun t =>
      t.host.mbi[b] = { s.host.mbi[b] with badlen := true } ∧ (∀ k : BoxId, k ≠ b → t.host.mbi[k] = s.host.mbi[k]) ∧
      t.host.cfgerr = true ∧ Outside [.mbi, .hostRegs] s t ∧
      t.host.intsrc = (if s.host.mbi[b].badlen && s.host.cfgerr then s.host.intsrc else s.host.intsrc ||| 4)) ∧
    (s.host.mbi[b].go = true → s.host.mbi[b].placed = some s.clk.now → ∀ i : Fin 16,
      exec (.registerWrite (BitVec.ofNat 16 (0x100 + 32 * b.val + i.val)) v) s =
        .next (s.modMbi b fun m => { m with w := m.w.set i.val v, placed := none })) ∧
    (s.host.mbi[b].go = true → s.host.mbi[b].placed ≠ some s.clk.now → ∀ c : Instr, (c = .go b len ∨
        ∃ i : Nat, i ≤ 16 ∧ c = .registerWrite (BitVec.ofNat 16 (0x100 + 32 * b.val + i)) v) → Completes c s fun t =>
      t.host.mbi[b] = { s.host.mbi[b] with busywr := true } ∧ (∀ k : BoxId, k ≠ b → t.host.mbi[k] = s.host.mbi[k]) ∧
      Outside [.mbi] s t ∧
      t.host.intsrc = (if s.host.mbi[b].busywr then s.host.intsrc else s.host.intsrc ||| 4)) ∧
    (s.host.mbo[b].go = true → exec (.ack b) s = .next (s.modMbo b fun m => { m with go := false })) ∧
    (s.host.mbo[b].go = false → Completes (.ack b) s fun t =>
      t.host.mbo[b] = { s.host.mbo[b] with ackerr := true } ∧ (∀ k : BoxId, k ≠ b → t.host.mbo[k] = s.host.mbo[k]) ∧
      Outside [.mbo] s t ∧
      t.host.intsrc = (if s.host.mbo[b].ackerr then s.host.intsrc else s.host.intsrc ||| 4))

/-- HCTL.HOST_RESET clears W0 to W15, LEN and GO of every outbound mailbox and keeps ACKERR; where firmware runs, it drops the queued
responses, those that wait for an earlier one, and bulk data with its handle, keeps its events, counts an event that the write cleared as
lost, raises CNT_SAT when that brings the counter to its maximum, and puts HOST_SESSION with the number of discarded responses in front
(R369, R309; the place in front is log 17). -/
def Obligations.HostReset : Prop :=
  ∀ s : State, s.host.ready = true → Completes .hostReset s fun t =>
    (∀ b : BoxId, t.host.mbo[b] = { s.host.mbo[b] with w := .replicate 16 0, len := 0, go := false }) ∧
    (s.boot.phase ≠ .firmware → Outside [.mbo] s t) ∧ (s.boot.phase = .firmware →
    t.fw.q[0] = [] ∧ t.fw.q[1] = [] ∧ t.fw.q[3] = [] ∧ t.fw.bulkOut = [] ∧ t.fw.outHandle = 0 ∧
    t.fw.line = s.fw.line.filter (fun x => x.msg.isNone) ∧
    t.fw.q[2] = mkEvent s 0x8102 [wordN (s.queued 0 + s.fw.q[3].length + boolN s.host.mbo[0].go
      + boolN s.host.mbo[3].go)] :: (s.fw.q[2] ++
      (if s.host.mbo[2].go ∧ s.fw.loss = 0xFFFFFFFE ∧ s.fw.q[2].length < 31 ∧ s.evOn 0x810A then [mkEvent s 0x810A [0x0D]] else [])) ∧
    t.fw.loss = (if s.host.mbo[2].go then satInc s.fw.loss else s.fw.loss) ∧
    t.host.intsrc = s.host.intsrc ∧ t.sup.stat = s.sup.stat ∧ Outside [.mbo, .resp, .events, .fw] s t)

/-- Direct-mode frames. While READY is 0 a frame shifts out zeros and changes nothing. With READY = 1 a NOP shifts out zeros and changes
nothing; an unassigned code sets BADCMD once its eight clocks are in; READ of one whole word returns the word and, for SYSCNT_LO, loads
the latches; STATUS returns HSTATUS; WRITE of one whole word writes it; a partial WRITE word writes nothing; a burst WRITE leaves what its
words written one after the other leave, but for the bits that HDO carried (R344 to R352). -/
def Obligations.DirectFrames : Prop :=
  ∀ s : State, s.boot.straps.hchain = false →
    (s.host.ready = false → ∀ (a : Half) (v : Word) n,
      exec (.read a (24 + 32 * n)) s = .next { s with host.hdo := { statusByte := 0, words := List.replicate n 0 } } ∧
      exec (.status (8 + 32 * n)) s = .next { s with host.hdo := { statusByte := 0, words := List.replicate n 0 } } ∧
      exec (.write a (List.replicate n v) (24 + 32 * n)) s =
        .next { s with host.hdo := { statusByte := 0, words := List.replicate n 0 } }) ∧
    (s.host.ready = true →
    (∀ n, exec (.nop 0 (24 + 32 * n)) s =
      .next { s with host.hdo := { statusByte := s.hstatus.truncate 8, words := List.replicate n 0 } }) ∧
    (∀ (cmd : Byte) n, 4 ≤ cmd.toNat → 8 ≤ n → Completes (.nop cmd n) s fun t =>
      t.host.badcmd = true ∧ (∀ w ∈ t.host.hdo.words, w = 0) ∧ t.host.addrOvr = s.host.addrOvr ∧
      t.host.intsrc = (if s.host.badcmd then s.host.intsrc else s.host.intsrc ||| 4) ∧ Outside [.hostRegs] s t) ∧
    (∀ a : Half, a.toNat < 0x1000 → exec (.read a 56) s =
      .next { (if a = 0x010 then latchCounters s else s) with
        host.hdo := { statusByte := s.hstatus.truncate 8, words := [regRead a.toNat s] } }) ∧
    (∀ a : Half, 0x1000 ≤ a.toNat → Completes (.read a 56) s fun t =>
      t.host.addrOvr = true ∧ t.host.hdo.words = [0] ∧ t.host.badcmd = s.host.badcmd ∧
      t.host.intsrc = (if s.host.addrOvr then s.host.intsrc else s.host.intsrc ||| 4) ∧ Outside [.hostRegs] s t) ∧
    exec (.status 40) s = .next { s with host.hdo := { statusByte := s.hstatus.truncate 8, words := [s.hstatus] } } ∧
    (∀ v, exec (.write 0x00F [v] 56) s = .next
      { s with host.scratch := v, host.hdo := { statusByte := s.hstatus.truncate 8, words := [0] } }) ∧
    (∀ (a : Half) v k, a.toNat < 0x1000 → k < 32 → exec (.write a [v] (24 + k)) s =
      .next { s with host.hdo := { statusByte := s.hstatus.truncate 8, words := [] } }) ∧
    (∀ (t u : State) (a : Half) (v : Word) (l : List Word), a.toNat + 1 < 0x10000 → exec (.write a [v] 56) s = .next t →
      exec (.write (a + 1) l (24 + 32 * l.length)) t = .next u →
      ∃ u', exec (.write a (v :: l) (24 + 32 * (l.length + 1))) s = .next u' ∧ { u' with host.hdo := u.host.hdo } = u))

/-- Chain mode. A complete frame shifts out the response stage that the device held, then the stages of the devices before it as they pass
through, and executes its own command stage: a WRITE writes its word and echoes it, a READ returns the word that it takes, a STATUS returns
HSTATUS, a NOP zero; address and tag are echoed. A frame that begins with READY = 0 shifts out zeros before them and executes nothing. One
that is no multiple of 64 clocks, or has none, executes nothing and keeps the response stage (R354 to R357). -/
def Obligations.ChainFrames : Prop :=
  ∀ (s : State) (through : List Quad) (a : Half) (d : Word) (tag : Byte), s.boot.straps.hchain = true →
    let passed : List Word := through.flatMap fun (q : Quad) => [(q >>> 32).truncate 32, q.truncate 32]
    (∀ n, (n % 64 ≠ 0 ∨ n = 0) → Completes (.chainFrameDiscard n) s fun t => t.host.resp = s.host.resp ∧ Outside [] s t) ∧
    (∀ st, s.host.ready = false → Completes (.chainFrameExecute through st) s fun t =>
      t.host.resp = 0 ∧ t.host.hdo = { statusByte := 0, words := 0 :: 0 :: passed } ∧ Outside [] s t) ∧
    (s.host.ready = true →
      (∀ st, Completes (.chainFrameExecute through st) s fun t =>
        t.host.hdo = { statusByte := BitVec.ofNat 8 (s.host.resp.toNat / 2 ^ 56),
                       words := (s.host.resp >>> 24).truncate 32 :: BitVec.ofNat 32 (s.host.resp.toNat % 2 ^ 24) :: passed }) ∧
      (Completes (.chainFrameExecute through ((1 : Byte) ++ (0x00F : Half) ++ d ++ tag)) s fun t =>
        t.host.scratch = d ∧ t.host.resp = (s.hstatus.truncate 8 : Byte) ++ (0x00F : Half) ++ d ++ tag ∧
        Outside [.hostRegs] s t) ∧
      (a.toNat < 0x1000 → a ≠ 0x010 → Completes (.chainFrameExecute through ((2 : Byte) ++ a ++ d ++ tag)) s fun t =>
        t.host.resp = (s.hstatus.truncate 8 : Byte) ++ a ++ regRead a.toNat s ++ tag ∧ Outside [] s t) ∧
      (Completes (.chainFrameExecute through ((3 : Byte) ++ a ++ d ++ tag)) s fun t =>
        t.host.resp = (s.hstatus.truncate 8 : Byte) ++ a ++ s.hstatus ++ tag ∧ Outside [] s t) ∧
      (Completes (.chainFrameExecute through ((0 : Byte) ++ a ++ d ++ tag)) s fun t =>
        t.host.resp = (s.hstatus.truncate 8 : Byte) ++ a ++ (0 : Word) ++ tag ∧ Outside [] s t))

/-- OUTBOUND_SEND into an empty mailbox: the words W0 to W(LEN−1) of the oldest queued message are placed with its LEN and GO, the words above
stay; an event takes the next SEQ,
and a held EVT_LOST then follows the queued events; on MBO1 waiting bulk fragments move up, and the first of them is placed where none
is queued (R366, R370, R373). -/
def Obligations.OutboundSend : Prop :=
  ∀ (s : State) (b : BoxId) (m : Msg) (r : List Msg), s.sup.restarting = false → s.boot.phase = .firmware →
    s.host.mbo[b].go = false → 8 ≤ m.len.toNat →
    let placed := fun i : Fin 16 => if i.val < m.len.toNat then m.w[i] else s.host.mbo[b].w[i]
    (b = 1 → s.fw.q[b] = [] → s.fw.bulkOut = m :: r → Completes (.outboundSend b) s fun t =>
      t.host.mbo[b] = { s.host.mbo[b] with w := vof placed, len := m.len, go := true } ∧ t.fw.q[b] = r.take 32 ∧
      t.fw.bulkOut = r.drop 32 ∧ (∀ k : BoxId, k ≠ b → t.host.mbo[k] = s.host.mbo[k] ∧ t.fw.q[k] = s.fw.q[k]) ∧
      Outside [.mbo, .resp, .fw] s t) ∧
    (b ≠ 1 → s.fw.q[b] = [] → exec (.outboundSend b) s = .next s) ∧
    (s.fw.q[b] = m :: r → Completes (.outboundSend b) s fun t =>
      t.host.mbo[b].go = true ∧ t.host.mbo[b].len = m.len ∧ t.host.mbo[b].ackerr = s.host.mbo[b].ackerr ∧
      (∀ i : Fin 16, i ≠ 0 ∨ b ≠ 2 → t.host.mbo[b].w[i] = placed i) ∧
      (b = 2 → t.host.mbo[b].w[0] = m.w[0] ||| (s.fw.evSeq.zeroExtend 32 <<< 16) ∧ t.fw.evSeq = s.fw.evSeq + 1 ∧
        t.fw.lostHeld = false ∧
        t.fw.q[b] = r ++ (if s.fw.lostHeld then [mkEvent s 0x8D01 [s.fw.loss]] else [])) ∧
      (b = 1 → t.fw.q[b] = r ++ s.fw.bulkOut.take (32 - r.length) ∧ t.fw.bulkOut = s.fw.bulkOut.drop (32 - r.length)) ∧
      (b = 0 ∨ b = 3 → t.fw.q[b] = r) ∧
      (∀ k : BoxId, k ≠ b → t.host.mbo[k] = s.host.mbo[k] ∧ t.fw.q[k] = s.fw.q[k]) ∧
      Outside [.mbo, .resp, .events, .fw] s t)

/-! ### 14: SYS -/

/-- SYS_INFO, SYS_STATUS and SYS_KEEPALIVE answer and change nothing but the response queue. SYS_CNTCLR returns the identifier and
the value that the counter had, and clears that counter only; with SUB = 3 it returns how many counters of the class it cleared
(R309, R381, R382, Tables 14.5, 14.14). -/
def Obligations.SysReports : Prop :=
  ∀ s : State, Serving s →
    Answers .sysInfo 0x0101 8 2 s (fun _ => True)
      (fun _ => [0x7480, 0xA1, 0x00010003, s.boot.serial.truncate 32, (s.boot.serial >>> 32).truncate 32,
        wordN (strapBits s.boot.straps),
        match s.link.pos with | some p => wordN (p.val + s.link.segid.toNat * 256) | none => 0xFFFF])
      (fun _ t => Outside [.resp] s t) ∧
    Answers .sysStatus 0x0102 8 2 s (fun _ => True)
      (fun _ => [if s.sup.quiet = 0 then 0 else 1, s.sup.quiet.zeroExtend 32, wordI (meanTenths s.pcd.dieT),
        wordI (meanTenths s.pcd.pcdT), s.statCode.zeroExtend 32])
      (fun _ t => Outside [.resp] s t) ∧
    Answers .sysKeepalive 0x0104 8 2 s (fun _ => True) (fun _ => []) (fun _ t => Outside [.resp] s t) ∧
    (∀ p : PortId, Answers .sysCntclr 0x010A 8 3 s (fun m => mword m 2 = wordN (1 + 256 * p.val))
      (fun m => [mword m 2, s.port[p].rxSlip])
      (fun _ t => t.port[p] = { s.port[p] with rxSlip := 0 } ∧ (∀ k : PortId, k ≠ p → t.port[k] = s.port[k]) ∧
        Outside [.resp, .port] s t)) ∧
    (∀ c : Fin 256, Answers .sysCntclr 0x010A 8 3 s (fun m => mword m 2 = wordN (7 + 256 * c.val))
      (fun m => [mword m 2, s.mtx.cols[c].sat])
      (fun _ t => t.mtx.cols[c] = { s.mtx.cols[c] with sat := 0 } ∧ (∀ k : Fin 256, k ≠ c → t.mtx.cols[k] = s.mtx.cols[k]) ∧
        { t.mtx with cols := s.mtx.cols } = s.mtx ∧ Outside [.resp, .mtx] s t)) ∧
    Answers .sysCntclr 0x010A 8 3 s (fun m => mword m 2 = 0x0E) (fun _ => [0x0E, s.fw.drop0])
      (fun _ t => t.fw.drop0 = 0 ∧ { t.fw with drop0 := s.fw.drop0, q := s.fw.q } = s.fw ∧ Outside [.resp, .fw] s t) ∧
    Answers .sysCntclr 0x010A 8 3 s (fun m => mword m 2 = 0x30009) (fun _ => [0x30009, 20])
      (fun _ t => ∀ e : EngId, t.eng[e] = { s.eng[e] with pCorr := 0 })

/-- SYS_QUIET. W2 = 1 sets cause bit 1; on a device that was not quiet every output is then gated, the PCD is quiet, QUIETCHG is set and
DEV_QUIET is queued. W2 = 0 clears the bit, and the last cause releases the PCD; while another cause holds the device quiet it is refused
with E_STATE; a quiet state of the PCD's own, by its stream watchdog or its supplies, goes on (R381, R440, R280, Table 17.4). -/
def Obligations.SysQuiet : Prop :=
  ∀ s : State, Serving s →
    Answers .sysQuiet 0x0103 8 3 s (fun m => mword m 2 = 1) (fun _ => []) (fun _ t =>
      t.sup.quiet = s.sup.quiet ||| 2 ∧ Outside [.sup, .clk, .resp, .events, .fw, .pcd] s t ∧
      (s.sup.quiet = 0 → t.pcd.quiet = true ∧ (∀ n : Fin 8, t.clk.out[n].running = false) ∧
        t.host.intsrc.getLsbD 1 = true)) ∧
    Answers .sysQuiet 0x0103 8 3 s (fun m => mword m 2 = 0 ∧ s.sup.quiet &&& ~~~2#7 = 0) (fun _ => []) (fun _ t =>
      t.sup.quiet = 0 ∧ Outside [.sup, .resp, .events, .pcd] s t ∧
      (s.sup.quiet ≠ 0 → t.host.intsrc.getLsbD 1 = true ∧
        (s.pcd.streamLost = false → s.pcd.supplyLow = false → t.pcd.quiet = false) ∧
        (s.pcd.streamLost = true ∨ s.pcd.supplyLow = true → t.pcd = s.pcd))) ∧
    (∀ m, Request 0x0103 8 3 m s → mword m 2 = 0 → s.sup.quiet &&& ~~~2#7 ≠ 0 → Completes (.sysQuiet m) s fun t =>
      t.fw.q[0] = s.fw.q[0] ++ [answer m 0x20 0 []] ∧ Outside [.resp] s t)

/-- SYS_XFER_OPEN gives the lowest free handle to a transfer of the kind and size that it names, and SYS_XFER_DROP frees a handle.
BULK_FRAGMENT: a fragment whose offset is the number of bytes received so far appends its bytes to the lowest transfer that is not
complete; one at another offset closes that transfer with E_SEQ in XFER_DONE and leaves its handle (R379; the lowest handle is the
model's, log 46). -/
def Obligations.Transfers : Prop :=
  (∀ (s : State) (i : Fin 8), Serving s →
    (s.fw.handle[i] = none → (∀ j : Fin 8, j < i → s.fw.handle[j] ≠ none) →
      Answers .sysXferOpen 0x0105 8 4 s
        (fun m => (mword m 2).toNat < 4 ∧ 0 < (mword m 3).toNat ∧ s.staged + (mword m 3).toNat ≤ 327680)
        (fun _ => [wordN (i.val + 1)])
        (fun m t => t.fw.handle[i] =
            some { kind := kindOf (mword m 2).toNat, size := (mword m 3).toNat, bytes := [], status := none } ∧
          (∀ j : Fin 8, j ≠ i → t.fw.handle[j] = s.fw.handle[j]) ∧ { t.fw with handle := s.fw.handle, q := s.fw.q } = s.fw ∧
          Outside [.resp, .fw] s t)) ∧
    (s.fw.handle[i] ≠ none → Answers .sysXferDrop 0x0106 8 3 s (fun m => mword m 2 = wordN (i.val + 1)) (fun _ => [])
      (fun _ t => t.fw.handle[i] = none ∧ (∀ j : Fin 8, j ≠ i → t.fw.handle[j] = s.fw.handle[j]) ∧
        { t.fw with handle := s.fw.handle, q := s.fw.q } = s.fw ∧ Outside [.resp, .fw] s t))) ∧
  (∀ (s : State) (m : Msg) (i : Fin 8) (h : Handle), s.boot.phase = .firmware → s.sup.restarting = false →
    m.box = 1 → cmdOf m = 1 → s.fw.handle[i] = some h → h.status = none → h.kind ≠ .image →
    (∀ (j : Fin 8) x, j < i → s.fw.handle[j] = some x → x.status ≠ none) →
    ((mword m 1).toNat = h.bytes.length → h.bytes.length + 4 * (min m.len.toNat 16 - 2) < h.size →
      Completes (.bulkFragment m) s fun t =>
        t.fw.handle[i] = some { h with bytes := h.bytes ++ wordBytes ((mwords m).drop 2) } ∧
        (∀ j : Fin 8, j ≠ i → t.fw.handle[j] = s.fw.handle[j]) ∧ { t.fw with handle := s.fw.handle } = s.fw ∧
        Outside [.fw] s t) ∧
    ((mword m 1).toNat ≠ h.bytes.length → s.evOn 0x8107 = true → s.evRoom = true → Completes (.bulkFragment m) s fun t =>
        t.fw.handle[i] = some { h with status := some 0x32 } ∧ (∀ j : Fin 8, j ≠ i → t.fw.handle[j] = s.fw.handle[j]) ∧
        t.fw.q[2] = s.fw.q[2] ++ [mkEvent s 0x8107 [wordN (i.val + 1), 0x32, 0]] ∧ Outside [.events, .fw] s t))

/-- SYS_SAVE seals a record of the present settings at the running SVN, with CSEQ one above the highest readable copy, over the copy that may
be written, and refuses with E_STATE where none may. SYS_SLEEP, refused in a trial, orders every channel and every port to stop; once they
have, the outputs stop and the command is answered, and once the answer has been sent the device sleeps with what it retains (the
boundaries at which it does so are log 48). SYS_RESET resets the device with its cause and without an answer (R381, R417, R418, R422). -/
def Obligations.SysSaveSleepReset : Prop :=
  ∀ s : State, Serving s →
    (∀ i : Fin 2, s.boot.keyRead = true → s.writeTo = some i → s.hasCopy i = true →
      Answers .sysSave 0x0107 8 2 s (fun _ => True) (fun _ => [s.nextCseq]) (fun _ t =>
        (∃ c, t.boot.sealed[i] = some c ∧ c.data = capture s.boot.cred s ∧ c.ksvn = s.boot.image.svn ∧ c.cseq = s.nextCseq ∧
          c.magic = 0x4C414553 ∧ c.len.toNat ≤ 28624 ∧ c.tag = c.tagUnder s.boot.serial s.boot.key) ∧
        (∀ j : Fin 2, j ≠ i → t.boot.sealed[j] = s.boot.sealed[j]) ∧ { t.boot with sealed := s.boot.sealed } = s.boot ∧
        Outside [.resp, .boot, .peri] s t)) ∧
    (s.boot.keyRead = false ∨ s.writeTo = none ∨ (∃ i, s.writeTo = some i ∧ s.hasCopy i = false) →
      ∀ m, Request 0x0107 8 2 m s → Completes (.sysSave m) s fun t =>
        t.fw.q[0] = s.fw.q[0] ++ [answer m 0x20 0 []] ∧ Outside [.resp] s t) ∧
    (∀ m, Request 0x0108 8 3 m s → (mword m 2 = 1 ∨ mword m 2 = 2 ∨ mword m 2 = 3) →
      (s.trying = false → s.fw.sleep = none → (∀ p : PortId, s.port[p].st = .run → NoFeed p s) →
        Completes (.sysSleep m) s fun t =>
          t.fw.sleep = some ((mword m 2).truncate 2, some m) ∧
          (∀ c : ChanId, t.pcd.ch[c].wasRun = false ∧
            (s.pcd.ch[c].st = .run → s.rampOk c = true → t.pcd.ch[c].st = .run ∧ t.pcd.ch[c].stopWhy ≠ none) ∧
            (s.pcd.ch[c].st = .rampUp → s.rampOk c = true → t.pcd.ch[c].st = .rampDown) ∧
            (s.pcd.ch[c].st.isQuiet = true → t.pcd.ch[c].st = .off)) ∧
          (∀ p : PortId, t.port[p].st = (if s.port[p].st = .run ∨ s.port[p].st = .stopping then .stopping else .off)) ∧
          Outside [.resp, .events, .fw, .pcd, .port, .clk] s t) ∧
      (s.trying = true → Completes (.sysSleep m) s fun t =>
        t.fw.q[0] = s.fw.q[0] ++ [answer m 0x20 0 []] ∧ Outside [.resp] s t) ∧
      (s.trying = false → s.fw.sleep ≠ none → Completes (.sysSleep m) s fun t =>
        t.fw.q[0] = s.fw.q[0] ++ [answer m 0x21 0 []] ∧ Outside [.resp] s t)) ∧
    (∀ mask m, s.fw.sleep = some (mask, some m) → s.stopped = true → m.box = 0 → cmdOf m = 0x0108 →
      sleepStep s = ok m [] (forIdx 8 stopOut { s with fw.sleep := some (mask, none) }) ∧
      (∀ n : Fin 8, (sleepStep s).clk.out[n].running = false ∧ (sleepStep s).clk.out[n].started = false) ∧
      (s.fw.line = [] ∨ s.fw.line = [{ key := keyOf m, pos := none, msg := none }] →
        (sleepStep s).fw.q[0] = s.fw.q[0] ++ [answer m 0 0 []])) ∧
    (∀ mask m, s.fw.sleep = some (mask, some m) → s.stopped = false → sleepStep s = s) ∧
    (∀ mask e, s.fw.sleep = some (mask, none) → s.fw.q[0] = [] → s.fw.sched = [] → s.fw.line = [] → s.clk.tickRun = true →
      Completes (.tickBoundary e []) s fun t =>
        t.boot.phase = .sleeping ∧ t.boot.wakeMask = mask ∧ t.host.ready = false ∧ t.host.mbo = .replicate 4 .reset ∧
        t.clk = .reset ∧ t.eng = .replicate 20 .reset ∧ t.fw = .reset ∧ t.boot.warm = s.boot.warm ∧
        t.boot.imgBytes = s.boot.imgBytes ∧ t.boot.kh = s.boot.kh ∧ t.boot.revoke = s.boot.revoke ∧
        t.boot.sealed = s.boot.sealed ∧ t.pending = s.pending) ∧
    (∀ m, Request 0x0109 8 3 m s → mword m 2 = 0xD1E5 → Completes (.sysReset m) s fun t =>
      t.boot.phase = .held ∧ t.sup.resetCause = 3 ∧ t.sup.stat = 1 ∧ t.clk = .reset ∧ t.host.mbo = .replicate 4 .reset ∧
      t.fw = .reset ∧ t.mtx = .reset ∧ t.pcd = .reset ∧ t.link = .reset ∧ t.boot.kh = s.boot.kh ∧
      t.boot.revoke = s.boot.revoke ∧ t.boot.slotA = s.boot.slotA ∧ t.boot.slotB = s.boot.slotB ∧
      t.boot.sealed = s.boot.sealed ∧ t.boot.warm = s.boot.warm ∧ t.pending = s.pending)

/-! ### 13, 14: consumption, the checks, Capo-H -/

/-- MESSAGE_CONSUME of a message on MBI0 or MBI3 clears GO, keeps the words, and executes the command that CMD names, as that
command's row does on the same message; while MBI3 holds one, a message on MBI0 waits, and one on MBI1 that is no fragment waits for room in the
queue of MBO1 (R364, R370, R375, R376; executing at once is log
16). -/
def Obligations.ConsumeExecutes : Prop :=
  ∀ (s : State) (b : BoxId) (c : Cmd), c ∈ allCmds → s.boot.phase = .firmware → s.sup.restarting = false →
    s.host.mbi[b].go = true →
    let m : Msg := { box := b, len := s.host.mbi[b].len, w := s.host.mbi[b].w }
    (cmdOf m = c.code → (b = 0 → s.host.mbi[3].go = false) → (b = 1 → s.fw.q[1].length < 32) →
      exec (.messageConsume b) s = row c "" m (s.modMbi b fun x => { x with go := false, placed := none })) ∧
    (b = 1 → cmdOf m ≠ 1 → 32 ≤ s.fw.q[1].length → exec (.messageConsume b) s = .next (refresh s)) ∧
    (b = 0 → s.host.mbi[3].go = true → exec (.messageConsume b) s = .next (refresh s))

/-- What consumption does whatever the message orders: a message on MBI2 raises HOST_BADMBX and nothing else; a command whose
response queue is full is dropped, counted in DROP0 and reported by MBX_DROP; an unassigned group is answered E_RESERVED at bit
8 of W0 (R370, R374, R375, Table 13.7). -/
def Obligations.ConsumeUnusable : Prop :=
  ∀ (s : State), s.boot.phase = .firmware → s.sup.restarting = false →
    (s.host.mbi[2].go = true → s.evOn 0x8103 = true → s.evRoom = true → Completes (.messageConsume 2) s fun t =>
      t.host.mbi[2] = { s.host.mbi[2] with go := false, placed := none } ∧ t.fw.q[2] = s.fw.q[2] ++ [mkEvent s 0x8103 []] ∧
      (∀ k : BoxId, k ≠ 2 → t.host.mbi[k] = s.host.mbi[k]) ∧ Outside [.mbi, .events] s t) ∧
    (s.host.mbi[0].go = true → s.host.mbi[3].go = false → 32 ≤ s.fw.q[0].length → s.fw.drop0.toNat + 1 < 2 ^ 32 - 1 → s.evOn 0x8104 = true →
      s.evRoom = true → Completes (.messageConsume 0) s fun t =>
        t.fw.drop0 = s.fw.drop0 + 1 ∧ t.fw.q[0] = s.fw.q[0] ∧
        t.fw.q[2] = s.fw.q[2] ++ [mkEvent s 0x8104 [0, s.host.mbi[0].w[0]]] ∧ Outside [.mbi, .events, .fw] s t) ∧
    (s.host.mbi[0].go = true → s.host.mbi[3].go = false → s.fw.q[0].length < 32 → s.fw.line = [] → s.serves = true → 0x0F00 ≤ fld s.host.mbi[0].w[0] 0 16 →
      Completes (.messageConsume 0) s fun t =>
        t.fw.q[0] = s.fw.q[0] ++ [answer { box := 0, len := s.host.mbi[0].len, w := s.host.mbi[0].w } 0x10 0 [0x800, 0]] ∧
        Outside [.mbi, .resp] s t)

/-- The first failing check of R375 answers, and a rejected command changes no state: DIR, AT on a command without the mark, DEST
without FWD, a mailbox that does not take the command, a short LEN, W1 without AT, and then the command's own fields (R373,
R374, R375, R377). -/
def Obligations.CommandChecks : Prop :=
  ∀ (s : State) (c : Cmd) (m : Msg), Serving s → cmdOf m = c.code → (m.box = 0 ∨ m.box = 3) →
    s.fw.q[m.box].length < 32 →
    let rejects := fun (st : Nat) (ws : List Word) =>
      ∃ t, row c "" m s = .next t ∧ t.fw.q[m.box] = s.fw.q[m.box] ++ [answer m st 0 ws] ∧
        (m.box = 0 → Outside [.resp] s t)
    (m.w[0].getLsbD 24 = true → rejects 0x10 [0x1800, 0]) ∧
    (m.w[0].getLsbD 24 = false → m.w[0].getLsbD 25 = true → c.timed = false → rejects 0x10 [0x1900, 0]) ∧
    (fld m.w[0] 24 3 = 0 → fld m.w[0] 27 5 ≠ 0 → rejects 0x10 [0x1B00, 0]) ∧
    (fld m.w[0] 24 8 = 0 → m.box = 3 → c.safety = false → rejects 0x13 []) ∧
    (fld m.w[0] 24 8 = 0 → m.box = 0 → m.len.toNat < c.len m → rejects 0x12 []) ∧
    (fld m.w[0] 24 8 = 0 → m.box = 0 → c.len m ≤ m.len.toNat → mword m 1 ≠ 0 → rejects 0x10 [1, 0]) ∧
    (fld m.w[0] 24 8 = 0 → m.box = 0 → c.len m ≤ m.len.toNat → mword m 1 = 0 → ∀ f, c.check s m = some f →
      ∃ t, row c "" m s = .next t ∧ t.fw.q[0] = s.fw.q[0] ++ [answer m f.status f.info f.ws] ∧ Outside [.resp] s t)

/-- AT = 1: a device without a segment position answers E_NOT_MEMBER, one that has fewer than 16 frames left E_LATE, and both change
nothing else; otherwise the command runs with the frame of W1, and a rate of M on the active manager goes to every other member as well.
FWD = 1 on a device that is not the active manager is answered E_NOT_ACTIVE (R156, R331, R377, R378). -/
def Obligations.TimedAndForwarded : Prop :=
  ∀ (s : State) (c : Cmd) (m : Msg), Serving s → cmdOf m = c.code → m.box = 0 → s.fw.q[0].length < 32 →
    c.len m ≤ m.len.toNat →
    (c.timed = true → fld m.w[0] 24 8 = 2 → c.check s m = none →
      (s.standalone = true ∨ s.link.pos = none → ∃ t, row c "" m s = .next t ∧
        t.fw.q[0] = s.fw.q[0] ++ [answer m 0x25 0 []] ∧ Outside [.resp] s t) ∧
      (s.standalone = false → s.link.pos ≠ none → (mword m 1 - s.clk.frame).toInt < 16 → ∃ t, row c "" m s = .next t ∧
        t.fw.q[0] = s.fw.q[0] ++ [answer m 0x23 0 []] ∧ Outside [.resp] s t) ∧
      (s.standalone = false → s.link.pos ≠ none → 16 ≤ (mword m 1 - s.clk.frame).toInt →
        (s.link.active = false ∨ c.wide m = none ∨ s.otherMembers [] = [] →
          row c "" m s = .next (refresh (c.act m (some (mword m 1)) s))) ∧
        (s.spreads c m = true → sendFail c m 1 true s = none → (c.act m (some (mword m 1)) s).fw.sched.length ≠ s.fw.sched.length →
          row c "" m s = .next (refresh (spreadHere c m (c.act m (some (mword m 1)) s)))))) ∧
    (fld m.w[0] 24 3 = 4 → mword m 1 = 0 → s.link.active = false → ∃ t, row c "" m s = .next t ∧
      t.fw.q[0] = s.fw.q[0] ++ [answer m 0x24 0 []] ∧ Outside [.resp] s t)

/-- CAPO_H_RESET clears the words, LEN and GO of every inbound mailbox and sets ABORTED, empties the firmware's queues and closes
its transfers, sets INTSRC.CAPOH, and leaves the rest of the device as it is (R368, R439, R431). -/
def Obligations.CapoHReset : Prop :=
  ∀ s : State, s.boot.phase = .firmware → Completes .capoHReset s fun t =>
    (∀ b : BoxId, t.host.mbi[b] = { s.host.mbi[b] with w := .replicate 16 0, len := 0, go := false, aborted := true, placed := none }) ∧
    (∀ b : BoxId, t.fw.q[b] = []) ∧ t.fw.line = [] ∧ t.fw.handle = .replicate 8 none ∧ t.fw.bulkOut = [] ∧ t.sup.restarting = true ∧
    t.sup.capoHRun = false ∧ t.sup.quiet = s.sup.quiet ∧ t.host.intsrc.getLsbD 5 = true ∧ t.peri.queue = [] ∧
    t.peri.held = none ∧ t.fw.zone = s.fw.zone ∧ t.fw.kaInt = s.fw.kaInt ∧
    Outside [.mbi, .resp, .events, .fw, .sup, .peri] s t

/-- KEEPALIVE_LAPSE raises KA_LAPSE once and, with the policy QUIET, sets cause bit 2; a message that the firmware accepts on MBI3
ends the lapse and clears that bit (R371, R393). -/
def Obligations.KeepAlive : Prop :=
  ∀ s : State, s.boot.phase = .firmware → s.sup.restarting = false →
    (s.fw.kaInt ≠ 0 → s.fw.kaLapsed = false → s.evOn 0x8105 = true → s.evRoom = true → Completes .keepaliveLapse s fun t =>
      t.fw.kaLapsed = true ∧ t.sup.quiet = (if s.fw.kaQuiet then s.sup.quiet ||| 4 else s.sup.quiet) ∧
      Outside [.events, .fw, .sup, .clk, .pcd] s t ∧
      (s.fw.kaQuiet = false ∨ s.outsHeld = true →
        t.fw.q[2] = s.fw.q[2] ++ [mkEvent s 0x8105 [wordN (boolN s.fw.kaQuiet)]] ∧ t.clk = s.clk ∧ t.pcd = s.pcd)) ∧
    (∀ m : Msg, cmdOf m = 0x0104 → m.box = 3 → fld m.w[0] 24 8 = 0 → mword m 1 = 0 → 8 ≤ m.len.toNat →
      (∀ i, 2 ≤ i → i < m.len.toNat → mword m i = 0) → s.fw.q[3].length < 32 → s.serves = true →
      s.link.active = false → Completes (.sysKeepalive m) s fun t =>
        t.fw.kaLapsed = false ∧ t.sup.quiet = s.sup.quiet &&& ~~~4#7 ∧
        t.fw.q[3] = s.fw.q[3] ++ [answer m 0 0 []])

/-! ### 11: clocks -/

/-- CLK_SET of HOLDLIM takes effect at once; one of MRATE within the family is scheduled for the next boundary on a device that is no
member of a segment, and without AT it is refused on a member; one of the divider of a started output is refused with E_STATE and
changes nothing. CLK_GET returns a setting. CLK_STATUS reports CLKSTAT, the holdover time and the last return (R290 to R294, R311,
R331, R380, Table 11.6). -/
def Obligations.ClkSettings : Prop :=
  ∀ s : State, Serving s →
    Answers .clkSet 0x0201 8 4 s (fun m => mword m 2 = 0x24 ∧ (mword m 3).toNat ≤ 2000) (fun _ => []) (fun m t =>
      t.clk = { s.clk with holdLim := (mword m 3).toNat } ∧ Outside [.resp, .clk] s t) ∧
    Answers .clkSet 0x0201 8 4 s
      (fun m => mword m 2 = 0x21 ∧ (mword m 3).toNat ≤ 3 ∧ (MRate.ofCode (mword m 3).toNat).family = s.clk.family ∧
        (s.standalone = true ∨ s.link.pos = none) ∧ s.link.active = false)
      (fun _ => []) (fun m t =>
      t.fw.sched = s.fw.sched ++ [{ due := .next, change := .rate (.ofCode (mword m 3).toNat) }] ∧
      Outside [.resp, .fw] s t) ∧
    (∀ m, Request 0x0201 8 4 m s → mword m 2 = 0x21 → (mword m 3).toNat ≤ 3 → s.standalone = false → s.link.pos ≠ none →
      Completes (.clkSet m) s fun t => t.fw.q[0] = s.fw.q[0] ++ [answer m 0x20 0 []] ∧ Outside [.resp] s t) ∧
    (∀ n : Fin 8, s.clk.out[n].started = true → s.clk.out[n].src = .off → ∀ m, Request 0x0201 8 4 m s →
      mword m 2 = wordN (0x2A + 256 * n.val) → 1 ≤ (mword m 3).toNat → (mword m 3).toNat ≤ 65536 →
      Completes (.clkSet m) s fun t => t.fw.q[0] = s.fw.q[0] ++ [answer m 0x20 0 []] ∧ Outside [.resp] s t) ∧
    Answers .clkGet 0x0202 8 3 s (fun m => mword m 2 = 0x24) (fun _ => [wordN s.clk.holdLim])
      (fun _ t => Outside [.resp] s t) ∧
    (∀ n : Fin 8, Answers .clkGet 0x0202 8 3 s (fun m => mword m 2 = wordN (0x2A + 256 * n.val))
      (fun _ => [wordN s.clk.out[n].d]) (fun _ t => Outside [.resp] s t)) ∧
    Answers .clkStatus 0x0206 8 2 s (fun _ => True)
      (fun _ => [s.clkstat, wordN (if s.clk.hold then 1000 * (s.clk.now - s.clk.holdAt) / second else 0), wordI s.clk.lastE,
        if s.clk.lastRealign then 1 else 0])
      (fun _ t => Outside [.resp] s t)

/-- CLK_OUTSTART starts every named output whose chain is locked, together, with its divider at phase 0; in the quiet state it stays
gated; an unlocked chain is refused with E_STATE. CLK_OUTSTOP stops the named outputs at the end of their high phase. CLK_AS enables the
synthesizers of W2 and disables those of W3, which gates the outputs they feed (R291, R294 to R296, R443). -/
def Obligations.ClkOutputs : Prop :=
  ∀ s : State, Serving s →
    Answers .clkOutstart 0x0203 8 3 s (fun m => mword m 2 ≠ 0 ∧ (mword m 2).toNat < 256 ∧
        ∀ n : Fin 8, (mword m 2).getLsbD n.val = true → s.chainOk s.clk.out[n] = true ∧ s.pairedOdd n = false)
      (fun _ => []) (fun m t =>
      (∀ n : Fin 8, t.clk.out[n] = if (mword m 2).getLsbD n.val then
          (if s.sup.quiet = 0 ∧ s.clk.out[n].running = false then
            { s.clk.out[n] with started := true, running := true, age := 0, tail := 0, early := false }
          else { s.clk.out[n] with started := true })
        else s.clk.out[n]) ∧
      { t.clk with out := s.clk.out } = s.clk ∧ Outside [.resp, .clk] s t) ∧
    (∀ (n : Fin 8) m, Request 0x0203 8 3 m s → mword m 2 = wordN (2 ^ n.val) → s.chainOk s.clk.out[n] = false →
      Completes (.clkOutstart m) s fun t => t.fw.q[0] = s.fw.q[0] ++ [answer m 0x20 0 []] ∧ Outside [.resp] s t) ∧
    Answers .clkOutstop 0x0204 8 3 s (fun m => mword m 2 ≠ 0 ∧ (mword m 2).toNat < 256) (fun _ => []) (fun m t =>
      (∀ n : Fin 8, t.clk.out[n] = if (mword m 2).getLsbD n.val then
          { s.clk.out[n].gate (s.srcRate s.clk.out[n]) with started := false, running := false }
        else s.clk.out[n]) ∧
      { t.clk with out := s.clk.out } = s.clk ∧ Outside [.resp, .clk] s t) ∧
    (∀ k : Fin 4, Answers .clkAs 0x0205 8 4 s (fun m => mword m 2 = wordN (2 ^ k.val) ∧ mword m 3 = 0) (fun _ => []) (fun _ t =>
      t.clk.asn[k] = (if s.clk.asn[k].enabled then s.clk.asn[k] else { s.clk.asn[k] with enabled := true, lock := false }) ∧
      (∀ j : Fin 4, j ≠ k → t.clk.asn[j] = s.clk.asn[j]) ∧ { t.clk with asn := s.clk.asn } = s.clk ∧
      Outside [.resp, .clk] s t)) ∧
    (∀ k : Fin 4, Answers .clkAs 0x0205 8 4 s (fun m => mword m 2 = 0 ∧ mword m 3 = wordN (2 ^ k.val)) (fun _ => []) (fun _ t =>
      t.clk.asn[k] = { s.clk.asn[k] with enabled := false, lock := false } ∧
      (∀ n : Fin 8, t.clk.out[n].running = (s.clk.out[n].running && decide (s.clk.out[n].src ≠ .asn k))) ∧
      (∀ j : Fin 4, j ≠ k → t.clk.asn[j] = s.clk.asn[j]) ∧ Outside [.resp, .events, .clk] s t))

/-- The loss of the active source puts SYS and LNK into holdover, gates the outputs that the reference feeds, and selects the first
source of REFORDER that has qualified and can be taken; the loss of another source only ends its qualification; a port that leaves
RUN loses the source that it feeds; the switch to a preferred source is such a loss and names the new one; a source that qualifies
is taken only by a device without one (R285 to R287, R298, R299, R295; with HOLDLIM at 0 the holdover ends in leaving, R300). -/
def Obligations.ReferenceRows : Prop :=
  ∀ (s : State) (r src : RefSrc),
    (s.clk.actSrc = some r → (if s.clk.hold then s.clk.holdIn else s.clk.holdLim) ≠ 0 → Completes (.referenceLost r) s fun t =>
      t.clk.hold = true ∧ t.clk.sysLock = false ∧ t.clk.lnkLock = false ∧
      t.clk.lostSrc = (if s.clk.hold then s.clk.lostSrc else some r) ∧ t.clk.qual = s.clk.qual.filter (fun x => x ≠ r) ∧
      t.clk.actSrc = s.clk.refOrder.find? (fun x => (s.clk.qual.filter fun y => y ≠ r).contains x && s.usable x) ∧
      (∀ n : Fin 8, s.refFed s.clk.out[n] = true → t.clk.out[n].running = false) ∧ Outside [.clk, .events] s t) ∧
    (s.clk.actSrc ≠ some r → Completes (.referenceLost r) s fun t =>
      t.clk = { s.clk with qual := s.clk.qual.filter fun x => x ≠ r } ∧ Outside [.clk] s t) ∧
    (∀ p : PortId, portSrc p = some r → s.port[p].st = .run → s.clk.actSrc = some r → Completes (.clockStop p) s fun t =>
      t.clk.hold = true ∧ t.clk.actSrc ≠ some r ∧ t.clk.qual.contains r = false) ∧
    (s.clk.refOrder.contains src = true → s.clk.qual.contains src = false → s.usable src = true →
      Completes (.sourceQualified src) s fun t =>
      t.clk.qual = src :: s.clk.qual ∧
      t.clk.actSrc = (if s.clk.actSrc = none then
          s.clk.refOrder.find? (fun x => (src :: s.clk.qual).contains x && s.usable x)
        else s.clk.actSrc) ∧
      { t.clk with qual := s.clk.qual, actSrc := s.clk.actSrc } = s.clk ∧ Outside [.clk, .events] s t) ∧
    (s.clk.actSrc = some r → (s.clk.refOrder.takeWhile fun x => x ≠ r).contains src = true → s.clk.qual.contains src = true →
      s.usable src = true → (if s.clk.hold then s.clk.holdIn else s.clk.holdLim) ≠ 0 → Completes (.preferredSourceSwitch src) s fun t =>
        t.clk.actSrc = some src ∧ t.clk.hold = true ∧ t.clk.sysLock = false ∧ t.clk.lnkLock = false ∧
        t.clk.lostSrc = (if s.clk.hold then s.clk.lostSrc else some r) ∧
        (∀ n : Fin 8, s.refFed s.clk.out[n] = true → t.clk.out[n].running = false) ∧ Outside [.clk, .events] s t)

/-- The lock of a synthesizer takes the band of its bucket, or band 8 where the entry is not VALID, and a lock of SYS ends the
fallback oscillator while firmware runs; a loss of LNK has no effect on the tick, and a loss of SYS is a holdover; ASn locks
only while it is enabled, and its loss gates its outputs; a bucket two or more away from the one of the lock is reported
(R289, R291, R292, R298, R301). -/
def Obligations.SynthesizerRows : Prop :=
  ∀ (s : State) (b : Fin 16) (n : Fin 4) (y : SynId),
    (Completes (.synthesizerLock true b) s fun t =>
      t.clk.lnkLock = true ∧ t.clk.bandIn[1] = (if (s.clk.band[1][b]).1 then (s.clk.band[1][b]).2 else 8) ∧
      t.clk.bucketIn[1] = some b ∧ t.clk.sysLock = s.clk.sysLock ∧ t.clk.tickRun = s.clk.tickRun ∧ Outside [.clk] s t) ∧
    (Completes (.synthesizerLock false b) s fun t =>
      t.clk.sysLock = true ∧ t.clk.bandIn[0] = (if (s.clk.band[0][b]).1 then (s.clk.band[0][b]).2 else 8) ∧
      t.clk.lnkLock = s.clk.lnkLock ∧ t.clk.fallback = (s.clk.fallback && decide (s.boot.phase ≠ .firmware)) ∧
      t.clk.tickRun = (s.clk.tickRun || (s.clk.fallback && decide (s.boot.phase = .firmware))) ∧ Outside [.clk] s t) ∧
    (Completes (.synthesizerUnlock true) s fun t =>
      t.clk = { s.clk with lnkLock := false } ∧ Outside [.clk, .events] s t) ∧
    (s.clk.sysLock = true → (if s.clk.hold then s.clk.holdIn else s.clk.holdLim) ≠ 0 → Completes (.synthesizerUnlock false) s fun t =>
      t.clk.sysLock = false ∧ t.clk.hold = true ∧ t.clk.lnkLock = s.clk.lnkLock ∧ t.clk.actSrc = s.clk.actSrc ∧
      (∀ k : Fin 8, s.refFed s.clk.out[k] = true → t.clk.out[k].running = false) ∧ Outside [.clk, .events] s t) ∧
    (s.clk.asn[n].enabled = true → Completes (.asLock n true b) s fun t =>
      t.clk.asn[n] = { s.clk.asn[n] with lock := true } ∧ t.clk.bucketIn[n.val + 2] = some b ∧
      t.clk.sysLock = s.clk.sysLock ∧ Outside [.clk] s t) ∧
    (s.clk.asn[n].enabled = true → s.clk.asn[n].lock = true → Completes (.asLock n false b) s fun t =>
      t.clk.asn[n] = { s.clk.asn[n] with lock := false } ∧
      (∀ k : Fin 8, t.clk.out[k].running = (s.clk.out[k].running && decide (s.clk.out[k].src ≠ .asn n))) ∧
      Outside [.clk, .events] s t) ∧
    (∀ a : Fin 16, s.clk.bucketIn[y] = some a → (a.val + 2 ≤ b.val ∨ b.val + 2 ≤ a.val) → s.locked y = true →
      s.evOn 0x8208 = true → s.evRoom = true →
      exec (.bandBucketMove y b) s = .next (s.modQ 2 (· ++ [mkEvent s 0x8208 [wordN y.val, wordN b.val]])))

/-- A sync edge on SYNC_IN orders a restart 128 core cycles later, and one while a restart is pending is ignored; all gated outputs
whose chain is locked restart together (R296, R297). -/
def Obligations.OutputRows : Prop :=
  ∀ s : State,
    (s.clk.syncByFrame = false → s.clk.syncPend = none → exec .syncEdge s = .next { s with clk.syncPend := some 128 }) ∧
    (s.clk.syncByFrame = true ∨ s.clk.syncPend ≠ none → exec .syncEdge s = .next s) ∧
    (Completes .clkoutRestart s fun t =>
      (∀ n : Fin 8, t.clk.out[n] = if s.clk.out[n].started ∧ !s.clk.out[n].running ∧ s.chainOk s.clk.out[n] ∧
          s.outsHeld = false ∧ !s.pairedOdd n then { s.clk.out[n] with running := true, age := 0, tail := 0, early := false } else s.clk.out[n]) ∧
      { t.clk with out := s.clk.out } = s.clk ∧ Outside [.clk, .events] s t)

/-- FALLBACK stops the tick, loses SYS and LNK, gates every output and sets cause bit 4. RETURN ends holdover: a phase error e of at
most a cycle count of 1/8 tick is slewed, a larger one is realigned with a long tick of L_x cycles; SYS acquires the band of its
bucket, and a device that may step its counter takes the difference (R292, R301 to R303, R306). -/
def Obligations.FallbackAndReturn : Prop :=
  ∀ (s : State) (src : RefSrc) (e d : Int) (b : Fin 16),
    (s.clk.fallback = false → (if s.clk.hold then s.clk.holdIn else s.clk.holdLim) ≠ 0 → Completes .fallback s fun t =>
      t.clk.fallback = true ∧ t.clk.tickRun = false ∧ t.clk.sysLock = false ∧ t.clk.lnkLock = false ∧ t.clk.hold = true ∧
      t.sup.quiet = s.sup.quiet ||| 16 ∧ (∀ n : Fin 8, t.clk.out[n].running = false) ∧
      Outside [.clk, .sup, .events, .fw, .pcd] s t) ∧
    (s.clk.actSrc = some src → s.clk.hold = true → 8 * e.natAbs ≤ s.clk.mrate.cycles → s.clk.realign = .none →
      Completes (.refReturn src e d b) s fun t =>
        t.clk = { s.clk with hold := false, sysLock := true, lastE := e, lostSrc := none, lastRealign := false,
                             cntPend := (if s.mayStep src then d else 0) + s.clk.sysHold,
                             bandIn := s.clk.bandIn.set 0 (s.bandFor 0 b), bucketIn := s.clk.bucketIn.set 0 (some b) } ∧ Outside [.clk, .events] s t) ∧
    (s.clk.actSrc = some src → s.clk.hold = true → s.clk.mrate.cycles < 8 * e.natAbs →
      Completes (.refReturn src e d b) s fun t =>
        t.clk = { s.clk with hold := false, sysLock := true, lastE := e, lostSrc := none, lastRealign := true,
                             cntPend := (if s.mayStep src then d else 0) + s.clk.sysHold,
                             bandIn := s.clk.bandIn.set 0 (s.bandFor 0 b), bucketIn := s.clk.bucketIn.set 0 (some b),
                             realign := .fadeOut 0 (if 0 ≤ e then e.toNat else s.clk.mrate.cycles - e.natAbs)
                               s.clk.factor } ∧
        Outside [.clk] s t)

/-! ### 08: ports and microphones -/

/-- PORT_SET of STOPQ takes effect at once in any state of the port; a setting that needs OFF is refused with E_STATE on a port in
another state; PORT_GET returns any setting; PORT_STATUS returns the state, the four counters and the margin (R204, R205,
R380, Table 14.4). -/
def Obligations.PortSettings : Prop :=
  ∀ (s : State) (p : PortId), Serving s →
    (s.cfgOk p s.port[p].cfg s.port[p].newest = true →
      s.portClash (fun q => s.port[q].cfg) (fun q => decide (s.port[q].st ≠ .off)) p s.port[p].newest = false →
      Answers .portSet 0x0301 8 4 s (fun m => mword m 2 = wordN (0x0C + 256 * p.val) ∧ 16 ≤ (mword m 3).toNat ∧
          (mword m 3).toNat ≤ 4096) (fun _ => []) (fun m t =>
        t.port[p] = { s.port[p] with cfg.stopq := (mword m 3).toNat } ∧ (∀ k : PortId, k ≠ p → t.port[k] = s.port[k]) ∧
        Outside [.resp, .port, .sad] s t)) ∧
    (s.cfgOk p s.port[p].cfg s.port[p].newest = true → s.port[p].st ≠ .off → s.port[p].cfg.rxbase ≤ 127 → ∀ m,
      Request 0x0301 8 4 m s → mword m 2 = wordN (0x09 + 256 * p.val) → mword m 3 = wordN s.port[p].cfg.rxbase →
      Completes (.portSet m) s fun t => t.fw.q[0] = s.fw.q[0] ++ [answer m 0x20 0 []] ∧ Outside [.resp] s t) ∧
    (∀ id, 1 ≤ id → id ≤ 14 → p.val < 8 → Answers .portGet 0x0302 8 3 s (fun m => mword m 2 = wordN (id + 256 * p.val))
      (fun _ => [wordN (s.port[p].cfg.val id)]) (fun _ t => Outside [.resp] s t)) ∧
    Answers .portStatus 0x0306 8 3 s (fun m => mword m 2 = wordN p.val)
      (fun _ => [wordN s.port[p].st.code, s.port[p].rxSlip, s.port[p].txSlip, s.port[p].glitch, s.port[p].lostCnt,
        wordN s.port[p].margin, wordI s.port[p].rateErr]) (fun _ t => Outside [.resp] s t)

/-- PORT_START takes an OFF port to WAIT with its rows at zero; one that is not OFF stays. PORT_STOP takes RUN to STOPPING for 64 +
STOPQ transmit frames with the rows fading, WAIT and LOST to OFF at once, and leaves OFF and STOPPING (R210, R213, R226, Table
08.4). -/
def Obligations.PortStartStop : Prop :=
  ∀ (s : State) (p : PortId), Serving s →
    (s.port[p].st = .off → s.port[p].cfg.clksrc = none → s.cfgOk p s.port[p].cfg s.port[p].newest = true →
      s.portClash (fun q => s.port[q].cfg) (fun q => decide (s.port[q].st ≠ .off) || [p].contains q) p s.port[p].newest = false →
      Answers .portStart 0x0303 8 3 s (fun m => mword m 2 = wordN (2 ^ p.val)) (fun _ => []) (fun _ t =>
        t.port[p] = { s.port[p].idleBufs with
          st := .wait, fade := .at 0, txFade := .at 0, done := 0, last := ([], []) } ∧
        (∀ k : PortId, k ≠ p → t.port[k] = s.port[k]) ∧ Outside [.resp, .events, .port] s t)) ∧
    (s.port[p].st ≠ .off → Answers .portStart 0x0303 8 3 s (fun m => mword m 2 = wordN (2 ^ p.val)) (fun _ => [])
      (fun _ t => Outside [.resp] s t)) ∧
    (s.port[p].st = .run → NoFeed p s) → Answers .portStop 0x0304 8 3 s (fun m => mword m 2 = wordN (2 ^ p.val)) (fun _ => [])
      (fun _ t =>
      t.port[p] = (match s.port[p].st with
        | .run => { s.port[p] with st := .stopping, stopLeft := 64 + s.port[p].cfg.stopq, loop := false, loopOff := false,
                                   fade := { s.port[p].fade with goal := 0, step := s.port[p].fade.v / 64 },
                                   txFade := { s.port[p].txFade with goal := 0, step := s.port[p].txFade.v / 64 } }
        | .wait | .lost => { s.port[p].idleBufs with st := .off, fade := .at 0, txFade := .at 0 }
        | .off | .stopping => s.port[p]) ∧
      t.clk = (if s.port[p].st = .run then clkWithout p s else s.clk) ∧
      (∀ k : PortId, k ≠ p → t.port[k] = s.port[k]) ∧ Outside [.resp, .events, .port, .clk] s t)

/-- PORT_MASK stores a shadow mask, starts the fade-out of a port in RUN and names the next boundary; PORT_AES_GET returns the last
accepted block, and free bytes before one; PORT_AES_SET holds its values for the next Z preamble; PORT_LOOP orders the loop
test of one port in RUN, and its end (R221, R222, R230, R232, R444). -/
def Obligations.PortCommands : Prop :=
  ∀ (s : State) (p : PortId) (c : Fin 2), Serving s →
    (s.portClash (fun q => s.port[q].cfg) (fun q => decide (s.port[q].st ≠ .off)) p { in0 := 1, in1 := 0, out0 := 0, out1 := 0 }
        = false → 1 ≤ s.port[p].cfg.slots → s.port[p].cfg.rxbase < 128 → s.rateFits s.port[p].cfg = true →
      Answers .portMask 0x0305 8 7 s
        (fun m => mword m 2 = wordN p.val ∧ mword m 3 = 1 ∧ mword m 4 = 0 ∧ mword m 5 = 0 ∧ mword m 6 = 0)
        (fun _ => [s.clk.tick + 1]) (fun _ t =>
        t.port[p].shadow = some { in0 := 1, in1 := 0, out0 := 0, out1 := 0 } ∧ t.port[p].masks = s.port[p].masks ∧
        t.port[p].fade = (if s.port[p].st = .run ∧ s.port[p].fade.goal ≠ 0 then
          { s.port[p].fade with goal := 0, step := 1/64 } else s.port[p].fade) ∧
        t.port[p].outNow = s.port[p].outNow ∧ (∀ k : PortId, k ≠ p → t.port[k] = s.port[k]) ∧ Outside [.resp, .port] s t)) ∧
    (8 ≤ p.val → ∀ b, (s.port[p].aes[c]).status = some b → Answers .portAesGet 0x0307 8 4 s
      (fun m => mword m 2 = wordN p.val ∧ mword m 3 = wordN c.val) (fun _ => packBytes b.toList 6)
      (fun _ t => Outside [.resp] s t)) ∧
    (8 ≤ p.val → (s.port[p].aes[c]).status = none → ∀ m, Request 0x0307 8 4 m s → mword m 2 = wordN p.val →
      mword m 3 = wordN c.val → Completes (.portAesGet m) s fun t => ∃ ws : List Word, ws.length = 6 ∧
        t.fw.q[0] = s.fw.q[0] ++ [answer m 0 0 ws] ∧ Outside [.resp] s t) ∧
    (8 ≤ p.val → Answers .portAesSet 0x0308 10 10 s (fun m => mword m 2 = wordN p.val ∧ mword m 3 = wordN c.val) (fun _ => [])
      (fun m t => (∃ user, (t.port[p].aes[c]).next = some (msgBytes m, user, false, false)) ∧
        (t.port[p].aes[c]).txStatus = (s.port[p].aes[c]).txStatus ∧
        (∀ k : PortId, k ≠ p → t.port[k] = s.port[k]) ∧ Outside [.resp, .port] s t)) ∧
    (s.port[p].st = .run → s.port[p].loop = false → (∀ k : PortId, k ≠ p → s.port[k].loop = false) →
      Answers .portLoop 0x030A 8 4 s (fun m => mword m 2 = wordN p.val ∧ mword m 3 = 1) (fun _ => []) (fun _ t =>
        t.port[p].loop = true ∧ t.port[p].loopErr = false ∧ t.port[p].fade.goal = 0 ∧
        (∀ k : PortId, k ≠ p → t.port[k] = s.port[k]) ∧ Outside [.resp, .port] s t)) ∧
    (s.port[p].st = .run → s.port[p].loop = true →
      Answers .portLoop 0x030A 8 4 s (fun m => mword m 2 = wordN p.val ∧ mword m 3 = 0) (fun _ => []) (fun _ t =>
        t.port[p] = { s.port[p] with loopOff := true } ∧ (∀ k : PortId, k ≠ p → t.port[k] = s.port[k]) ∧
        Outside [.resp, .port] s t))

/-- PORT_MIC enables and disables microphones; the bits of a tick enter the decimator and the run of unchanged edges, and without the
high-pass the sample is the decimated one; the end of the 256-tick hold; the stuck level after 4,096 unchanged edges, and the
recovery (R235 to R237). -/
def Obligations.Microphones : Prop :=
  ∀ (s : State) (i : MicId) (w : Quad),
    (Serving s → Answers .portMic 0x0309 8 5 s (fun m => mword m 2 = wordN (2 ^ i.val) ∧ mword m 3 = 0 ∧ mword m 4 = 0)
      (fun _ => []) (fun _ t =>
        t.mic[i] = { (if s.mic[i].on then s.mic[i] else
          { Mic.reset with on := true, hold := some 0 }) with hp := false } ∧
        (∀ k : MicId, k ≠ i → t.mic[k] = { s.mic[k] with hp := false }) ∧ Outside [.resp, .mic] s t)) ∧
    (Serving s → Answers .portMic 0x0309 8 5 s (fun m => mword m 2 = 0 ∧ mword m 3 = wordN (2 ^ i.val) ∧ mword m 4 = 0)
      (fun _ => []) (fun _ t => t.mic[i].on = false ∧ (s.mic[i].on = true → t.mic[i].fade.goal = 0) ∧
        (∀ k : MicId, k ≠ i → t.mic[k] = { s.mic[k] with hp := false }) ∧ Outside [.resp, .mic] s t)) ∧
    (s.mic[i].on = true → Completes (.pdmSampleComplete i w) s fun t =>
      t.mic[i].bits = w ∧ t.mic[i].combs = (combOut s.mic[i].bits w ++ s.mic[i].combs).take 96 ∧
      t.mic[i].hpIn = pdmDecimate t.mic[i].combs ∧ (s.mic[i].hp = false → t.mic[i].sample = BitVec.ofInt 32 t.mic[i].hpIn) ∧
      t.mic[i].still = (stillRun (s.mic[i].bits.getLsbD 63) s.mic[i].still w).1 ∧
      t.mic[i].hit = (stillRun (s.mic[i].bits.getLsbD 63) s.mic[i].still w).2 ∧
      { t.mic[i] with bits := s.mic[i].bits, combs := s.mic[i].combs, hpIn := s.mic[i].hpIn, hpOut := s.mic[i].hpOut,
                      sample := s.mic[i].sample, still := s.mic[i].still, hit := s.mic[i].hit, alive := s.mic[i].alive } = s.mic[i] ∧
      (∀ k : MicId, k ≠ i → t.mic[k] = s.mic[k]) ∧ Outside [.mic] s t) ∧
    (s.mic[i].on = false → Completes (.pdmSampleComplete i w) s fun t => t.mic = s.mic ∧ Outside [] s t) ∧
    (s.mic[i].on = true → s.mic[i].hold = some 256 → s.mic[i].stuck = false → exec (.micEnableHoldExpiry i) s =
      .next (s.modMic i fun x => { x with hold := none, fade := { x.fade with goal := 1, step := 1/64 } })) ∧
    (s.mic[i].on = true → s.mic[i].stuck = false → s.mic[i].hit = true → Completes (.micStuckDetect i) s fun t =>
      t.mic[i].stuck = true ∧ t.mic[i].fade.goal = 0 ∧ (∀ k : MicId, k ≠ i → t.mic[k] = s.mic[k]) ∧
      Outside [.mic, .events] s t) ∧
    (s.mic[i].on = true → s.mic[i].stuck = true → s.mic[i].alive = 256 → s.mic[i].hold = none → Completes (.micRecovery i) s fun t =>
      t.mic[i].stuck = false ∧ t.mic[i].fade.goal = 1 ∧ (∀ k : MicId, k ≠ i → t.mic[k] = s.mic[k]) ∧
      Outside [.mic, .events] s t)

/-- FRAME_RECEIVED on a serial port. OFF and LOST ignore the frame. In WAIT a good frame of its own tick counts for qualification,
and the 256th orders the entry to RUN. In RUN a good frame is queued in Q1.31, in a buffer of 8 on a bound port; each glitch of a
frame counts and repeats the frame before it, and the third in a row sends the port to LOST (R206, R207, R211, R215, R217, R220,
R224, R225). -/
def Obligations.FrameReceived : Prop :=
  ∀ (s : State) (p : PortId) (f : RxFrame), p.val < 8 →
    let x := s.port[p]
    let words := ((frameLines p x.cfg f).1.map fun (v : Word) => v <<< (32 - x.cfg.width),
      (frameLines p x.cfg f).2.map fun (v : Word) => v <<< (32 - x.cfg.width))
    let fresh := frameGlitches p x.cfg f - x.overdue
    (x.st = .off ∨ x.st = .lost → exec (.frameReceived p f) s = .next (refresh s)) ∧
    (x.st = .wait → x.loop = false → x.toRun = false → frameGood p x.cfg f = true → x.done = 0 →
      x.good < 255 → Completes (.frameReceived p f) s fun t =>
        t.port[p] = { x with good := x.good + 1, glitchRun := 0, overdue := 0, done := 1 } ∧
        (∀ k : PortId, k ≠ p → t.port[k] = s.port[k]) ∧ Outside [.port] s t) ∧
    (x.st = .wait → x.loop = false → x.toRun = false → frameGood p x.cfg f = true → x.done = 0 →
      x.good = 255 → Completes (.frameReceived p f) s fun t =>
        t.port[p].toRun = true ∧ t.port[p].st = .wait ∧ (∀ k : PortId, k ≠ p → t.port[k] = s.port[k])) ∧
    (x.st = .run → x.loop = false → frameGood p x.cfg f = true → Completes (.frameReceived p f) s fun t =>
        t.port[p].rxBuf = (if x.cfg.binding ≠ .m ∧ 8 ≤ x.rxBuf.length then x.rxBuf.drop 1 else x.rxBuf) ++ [words] ∧
        t.port[p].rxSlip = (if x.cfg.binding ≠ .m ∧ 8 ≤ x.rxBuf.length then satInc x.rxSlip else x.rxSlip) ∧
        t.port[p].done = x.done + 1 ∧ t.port[p].glitchRun = 0 ∧ t.port[p].st = .run ∧
        (∀ k : PortId, k ≠ p → t.port[k] = s.port[k]) ∧ Outside [.port, .events] s t) ∧
    (x.st = .run → x.loop = false → frameGood p x.cfg f = false → x.cfg.binding = .m → x.glitchRun + fresh ≤ 2 →
      Completes (.frameReceived p f) s fun t =>
        t.port[p].glitch = satAdd x.glitch fresh ∧ t.port[p].glitchRun = x.glitchRun + fresh ∧
        t.port[p].rxBuf = x.rxBuf ++ List.replicate fresh (x.rxBuf.getLastD x.last) ∧ t.port[p].st = .run ∧
        (∀ k : PortId, k ≠ p → t.port[k] = s.port[k]) ∧ Outside [.port, .events] s t) ∧
    (x.st = .run → x.loop = false → frameGood p x.cfg f = false → 1 ≤ fresh → 3 ≤ x.glitchRun + fresh → NoFeed p s →
      x.cfg.binding = .m → Completes (.frameReceived p f) s fun t =>
        t.port[p].st = .lost ∧ t.port[p].lostCnt = satInc x.lostCnt ∧ t.port[p].rxBuf = [] ∧ t.clk = clkWithout p s ∧
        (∀ k : PortId, k ≠ p → t.port[k] = s.port[k]) ∧ Outside [.port, .events, .clk] s t)

/-- TRANSMIT_FRAME_START on a serial port: in RUN the first frame of a tick carries the columns of the mapping, rounded to the slot width,
and so do the frames of WAIT while the data fade after a change of the rate of M; OFF, LOST and else WAIT send the idle value; in STOPPING
the frames count down once their data fade, and after the last the port is OFF once the rows of a bound port have faded too. An AES port
in WAIT sends zeros in the enabled slots, a bound one no frames. What the receive side reads of a slot, MSB first, from the bits that a
port with the same layout drives edge by edge from the frame's start, is the word that was sent (R202, R206, R209, R213, R214, R216,
R232). -/
def Obligations.TransmitFrame : Prop :=
  (∀ (s : State) (p : PortId), p.val < 8 →
    (s.port[p].st = .run ∨ s.port[p].st = .wait ∧ s.port[p].txTail = true → s.port[p].cfg.binding = .m → s.port[p].txDone = 0 →
      s.port[p].loop = false → s.sup.quiet = 0 → Completes (.transmitFrameStart p) s fun t =>
        t.port[p] = { s.port[p].keepEnd.send (s.port[p].txData.map (outSlot s.port[p].cfg.width)) with txDone := 1 } ∧
        (∀ k : PortId, k ≠ p → t.port[k] = s.port[k]) ∧ Outside [.port] s t) ∧
    (s.port[p].st = .off ∨ s.port[p].st = .lost ∨ s.port[p].st = .wait ∧ s.port[p].txTail = false →
      Completes (.transmitFrameStart p) s fun t =>
        t.port[p].tx0 = List.replicate s.port[p].cfg.s s.port[p].cfg.idle ∧
        t.port[p].tx1 = List.replicate s.port[p].cfg.s s.port[p].cfg.idle ∧
        (∀ k : PortId, k ≠ p → t.port[k] = s.port[k]) ∧ Outside [.port] s t) ∧
    (s.port[p].st = .stopping → s.port[p].stopLeft = 0 → (s.port[p].cfg.binding = .m ∨ s.port[p].fade = .at 0) →
      Completes (.transmitFrameStart p) s fun t =>
        t.port[p].st = .off ∧ t.port[p].tx0 = List.replicate s.port[p].cfg.s s.port[p].cfg.idle ∧ t.port[p].rxBuf = [] ∧
        (∀ k : PortId, k ≠ p → t.port[k] = s.port[k]) ∧ Outside [.port, .events] s t) ∧
    (s.port[p].st = .stopping → 0 < s.port[p].stopLeft → s.port[p].cfg.binding = .m → s.port[p].loop = false →
      s.sup.quiet = 0 → Completes (.transmitFrameStart p) s fun t =>
        t.port[p].st = .stopping ∧
        t.port[p].stopLeft = (if s.port[p].stopCounts then s.port[p].stopLeft - 1 else s.port[p].stopLeft) ∧
        (∀ k : PortId, k ≠ p → t.port[k] = s.port[k]) ∧ Outside [.port] s t)) ∧
  (∀ (s : State) (p : PortId), 8 ≤ p.val → s.port[p].st = .wait → s.port[p].txTail = false →
    (s.port[p].cfg.binding = .m → Completes (.transmitFrameStart p) s fun t =>
      t.port[p].tx0 = (s.port[p].send (List.replicate s.port[p].nOut 0)).tx0 ∧ t.port[p].txDone = s.port[p].txDone + 1 ∧
      (∀ k : PortId, k ≠ p → t.port[k] = s.port[k]) ∧ Outside [.port] s t) ∧
    (s.port[p].cfg.binding ≠ .m → Completes (.transmitFrameStart p) s fun t =>
      t.port[p] = { s.port[p].keepEnd.frameFade with txAt := s.clk.now, tx0 := [], tx1 := [], txSubs := [] } ∧
      (∀ k : PortId, k ≠ p → t.port[k] = s.port[k]) ∧ Outside [.port] s t)) ∧
  (∀ (x : Port) (n : Nat) (bits : List Bool), 0 < x.cfg.width → x.cfg.width ≤ 32 → n < x.cfg.s → x.tx0.length = x.cfg.s →
    (∀ v ∈ x.tx0, ∃ w : Word, v = some w ∧ w.toNat < 2 ^ x.cfg.width) →
    x.cfg.firstBit + x.cfg.s * x.cfg.width ≤ bits.length →
    (∀ e, e < bits.length → x.cfg.firstBit ≤ e → x.lineBit false e = some (bits.getD e false)) →
    some (x.cfg.slotWord bits n) = x.tx0.getD n none)

/-- A stopped clock sends RUN to LOST and ends STOPPING in OFF, and the first edge takes LOST to WAIT; a margin window of a port in
RUN is stored and, below 512, reported; a captured channel-status block whose CRCC is right, or absent, is stored, and one whose
CRCC is wrong is counted; a saddle takes its estimate, mutes when it is out of range, and relocks with its port in RUN (R197 to R199,
R213, R219, R224, R229, R230). -/
def Obligations.PortReports : Prop :=
  ∀ (s : State) (p : PortId) (k : SadId) (c : Fin 2),
    (s.port[p].st = .run → NoFeed p s → Completes (.clockStop p) s fun t =>
      t.port[p].st = .lost ∧ t.port[p].lostCnt = satInc s.port[p].lostCnt ∧ t.port[p].fade.goal = 0 ∧
      t.port[p].tx0 = s.port[p].tx0 ∧ t.port[p].tx1 = s.port[p].tx1 ∧ t.clk = clkWithout p s ∧
      (∀ j : PortId, j ≠ p → t.port[j] = s.port[j]) ∧ Outside [.port, .events, .sad, .clk] s t) ∧
    (s.port[p].st = .stopping → Completes (.clockStop p) s fun t =>
      t.port[p].st = .off ∧ t.port[p].tx0 = s.port[p].tx0 ∧ t.port[p].tx1 = s.port[p].tx1 ∧
      (∀ j : PortId, j ≠ p → t.port[j] = s.port[j]) ∧ Outside [.port, .events, .sad] s t) ∧
    (s.port[p].st = .lost → Completes (.clockReturn p) s fun t =>
      t.port[p] = { s.port[p] with st := .wait, good := 0, done := 0 } ∧ (∀ j : PortId, j ≠ p → t.port[j] = s.port[j]) ∧
      Outside [.port, .events] s t) ∧
    (∀ (n : Nat) (e : Int), s.port[p].st = .run → s.port[p].cfg.binding = .m → Completes (.marginWindow p n e) s fun t =>
      t.port[p] = { s.port[p] with margin := n, rateErr := e } ∧ (512 ≤ n → Outside [.port] s t) ∧
      (n < 512 → s.evOn 0x8303 = true → s.evRoom = true →
        t.fw.q[2] = s.fw.q[2] ++ [mkEvent s 0x8303 [wordN p.val, wordN n, wordI e]])) ∧
    (∀ b : List (Bool × Bool × Bool), 8 ≤ p.val → (s.port[p].aes[c]).full = some b →
      Completes (.aesBlockCapture p c) s fun t =>
        (t.port[p].aes[c]).full = none ∧
        (t.port[p].aes[c]).user = BitVec.ofNat 192 (bitsNat (b.map fun x => x.2.1)) ∧
        (t.port[p].aes[c]).validity = BitVec.ofNat 192 (bitsNat (b.map fun x => x.1)) ∧
        (if (statusOf b)[0].getLsbD 0 ∧ (statusOf b)[23] ≠ 0 ∧ (statusOf b)[23] ≠ crcc (statusOf b) then
          (t.port[p].aes[c]).status = (s.port[p].aes[c]).status ∧
          (t.port[p].aes[c]).crcErr = satInc (s.port[p].aes[c]).crcErr
        else (t.port[p].aes[c]).status = some (statusOf b) ∧ (t.port[p].aes[c]).crcErr = (s.port[p].aes[c]).crcErr) ∧
        (∀ j : PortId, j ≠ p → t.port[j] = s.port[j]) ∧ Outside [.port, .events] s t) ∧
    (∀ n, s.sad[k].st = .running → s.sad[k].tracking = false → Completes (.saddleRateWindow k n) s fun t =>
      t.sad[k].est = some n ∧
      (20000 * ((12 * n : Int) - (ratio12 s.sad[k].ratio * 16777216 : Nat)).natAbs ≤ ratio12 s.sad[k].ratio * 16777216 →
        t.sad[k].st = .running) ∧
      (ratio12 s.sad[k].ratio * 16777216 < 20000 * ((12 * n : Int) - (ratio12 s.sad[k].ratio * 16777216 : Nat)).natAbs →
        t.sad[k].st = .muted ∧ t.sad[k].cause = 0 ∧ t.sad[k].mutes = satInc s.sad[k].mutes ∧ t.sad[k].fade.goal = 0) ∧
      (∀ j : SadId, j ≠ k → t.sad[j] = s.sad[j]) ∧ Outside [.sad, .events] s t) ∧
    (∀ n, s.sad[k].st = .muted → s.sad[k].port = some p → s.port[p].st = .run → s.sad[k].tracking = false → s.sad[k].est = some n →
      20000 * ((12 * n : Int) - (ratio12 s.sad[k].ratio * 16777216 : Nat)).natAbs ≤ ratio12 s.sad[k].ratio * 16777216 → Completes (.saddleRelock k) s fun t =>
        t.sad[k] = { s.sad[k] with st := .running, fade := { s.sad[k].fade with goal := 1, step := 1/480 } } ∧
        (∀ j : SadId, j ≠ k → t.sad[j] = s.sad[j]) ∧ Outside [.sad, .events] s t)

/-! ### 07: the matrix and the generators -/

/-- MTX_BATCH and MTX_BATCHH schedule their entries for the next boundary and name it; MTX_ARM, MTX_GEN and MTX_STRIKE schedule their
change; none changes the matrix before (R182, R183, R376, R383, R384). -/
def Obligations.MtxScheduled : Prop :=
  ∀ (s : State) (r : Fin 512) (c : Fin 256) (i : GenId), Serving s →
    Answers .mtxBatch 0x0401 8 5 s (fun m => mword m 2 = 1 ∧ mword m 3 = wordN (256 * r.val + c.val) ∧
        -32767 ≤ (mword m 4).toInt ∧ (mword m 4).toInt ≤ 32767) (fun _ => [s.clk.tick + 1]) (fun m t =>
      t.fw.sched = s.fw.sched ++
        [{ due := .next, change := .batch [{ kind := 0, row := r.val, col := c.val, val := (mword m 4).toInt }] }] ∧
      Outside [.resp, .fw] s t) ∧
    (∀ (h : Fin 8) (l : List Byte), s.object (h.val + 1) .batch = some l → l.length = 8 →
      entryCheck (objWord l 0) (objWord l 1) 0 1 0 = none →
      Answers .mtxBatchh 0x0402 8 3 s (fun m => mword m 2 = wordN (h.val + 1)) (fun _ => [s.clk.tick + 1]) (fun _ t =>
        t.fw.sched = s.fw.sched ++ [{ due := .next, change := .batch [entryOf (objWord l 0) (objWord l 1)] }] ∧
        Outside [.resp, .fw] s t)) ∧
    Answers .mtxArm 0x0405 8 4 s (fun m => (mword m 2).toNat ≤ 1 ∧ (mword m 3).toNat ≤ 4095) (fun _ => []) (fun m t =>
      t.fw.sched = s.fw.sched ++ [{ due := .next, change := .arm (mword m 2 = 1) (mword m 3).toNat }] ∧
      Outside [.resp, .fw] s t) ∧
    Answers .mtxGen 0x0406 8 6 s (fun m => mword m 2 = wordN i.val ∧ mword m 3 = 1 ∧ (mword m 4).toNat ≤ 1932735283 ∧
        -1200 ≤ (mword m 5).toInt ∧ (mword m 5).toInt ≤ 0) (fun _ => [s.clk.tick + 1]) (fun m t =>
      (∃ ps : List Int, t.fw.sched = s.fw.sched ++ [{ due := .next, change := .gen i 1 ps }] ∧
        ps.take 2 = [(mword m 4).toInt, (mword m 5).toInt]) ∧ Outside [.resp, .fw] s t) ∧
    Answers .mtxStrike 0x0407 8 3 s (fun m => mword m 2 ≠ 0 ∧ (mword m 2).toNat < 65536) (fun _ => [s.clk.tick + 1])
      (fun m t => t.fw.sched = s.fw.sched ++ [{ due := .next, change := .strike ((mword m 2).truncate 16) }] ∧
        Outside [.resp, .fw] s t)

/-- MTX_READ returns the stored targets and the gain in force of a crosspoint, MTX_COLREAD the gains, ramp length, scaling and
saturation counter of a column, MTX_SADDLE the estimate, the delay of locked mode and the mute count (R176, R187, R394). -/
def Obligations.MtxReads : Prop :=
  ∀ (s : State) (r : Fin 512) (c : Fin 256) (k : SadId), Serving s →
    Answers .mtxRead 0x0403 8 4 s (fun m => mword m 2 = wordN r.val ∧ mword m 3 = wordN c.val)
      (fun _ => [wordI (xpGet s.mtx.xp (256 * r.val + c.val)).a, wordI (xpGet s.mtx.xp (256 * r.val + c.val)).b,
        wordI (xpGet s.mtx.xp (256 * r.val + c.val)).cur]) (fun _ t => Outside [.resp] s t) ∧
    Answers .mtxColread 0x0404 8 3 s (fun m => mword m 2 = wordN c.val)
      (fun _ => [wordI s.mtx.cols[c].hostA, wordI s.mtx.cols[c].hostB, wordI s.mtx.cols[c].a, wordI s.mtx.cols[c].b,
        wordN s.mtx.cols[c].rc, wordN s.mtx.cols[c].mode.code, wordN s.mtx.cols[c].f, wordN (s.nOf c), s.mtx.cols[c].sat])
      (fun _ t => Outside [.resp] s t) ∧
    (∀ e, s.sad[k].st ≠ .unbound → s.sad[k].tracking = false → s.sad[k].est = some e → ∀ m, Request 0x0408 8 3 m s →
      mword m 2 = wordN k.val → Completes (.mtxSaddle m) s fun t => ∃ code : Word,
        t.fw.q[0] = s.fw.q[0] ++ [answer m 0 0 [code, wordN e, 96, s.sad[k].mutes]] ∧ Outside [.resp] s t)

/-- What the scheduled changes do at their boundary: a batch entry gives a crosspoint its target in the set that it names and
starts a ramp of the column's length toward it only when that set is in force, and the entry that it writes is no longer one of a lost
parity; arming, a strike, a generator's type (R181 to R184,
R193). -/
def Obligations.MtxChanges : Prop :=
  ∀ (s : State) (r : Fin 512) (c : Fin 256) (i : GenId) (v : Int), s.mtx.fault = none → s.mtx.selB = false →
    (let x := xpGet s.mtx.xp (256 * r.val + c.val)
     let t := (applyChange (.batch [{ kind := 0, row := r.val, col := c.val, val := v }]) false s).2
     v ≠ x.a → v ≠ x.cur →
       t.mtx.xp = xpSet s.mtx.xp (256 * r.val + c.val)
         { x with a := v, ramp := some { g0 := x.cur, j := 0, r := s.mtx.cols[c].rc } } ∧
       { t.mtx with xp := s.mtx.xp, parity := s.mtx.parity } = s.mtx ∧
       t.mtx.parity = s.mtx.parity.filter (fun p => p ≠ (256 * r.val + c.val, .setA)) ∧ Outside [.mtx] s t) ∧
    (let x := xpGet s.mtx.xp (256 * r.val + c.val)
     let t := (applyChange (.batch [{ kind := 1, row := r.val, col := c.val, val := v }]) false s).2
     t.mtx.xp = xpSet s.mtx.xp (256 * r.val + c.val) { x with b := v } ∧ Outside [.mtx] s t) ∧
    (∀ n, (applyChange (.arm true n) false s).2 = { s with mtx.armed := true, mtx.rp := n }) ∧
    (∀ ps, let t := (applyChange (.gen i 1 ps) false s).2
      t.gen[i].ty = .sine ∧ (∀ k : GenId, k ≠ i → t.gen[k] = s.gen[k]) ∧ Outside [.gen] s t) ∧
    (s.gen[i].ty = .chime → ((applyChange (.strike (BitVec.ofNat 16 (2 ^ i.val))) false s).2).gen[i].struck = some 0)

/-- The ramp of a gain. A target equal to the stored one leaves the ramp as it is, one equal to the gain in force starts none.
Any other target G starts from the gain g0 in force: the gain at boundary j of the ramp is g0 + trunc((G − g0) × (j + 1) / R_c)
while j is below R_c and G from there on, at once with R_c = 0, and never leaves the range between g0 and G. For C_k every column's
post-gain and every crosspoint takes one step of its ramp (R180, R181). -/
def Obligations.RampLaw : Prop :=
  (∀ (old goal g0 : Int) (n : Nat) (r : Option Ramp),
    let walk := fun k : Nat =>
      (List.range k).foldl (fun (x : Int × Option Ramp) _ => rampStep1 goal x.1 x.2) (g0, newRamp old goal g0 n r)
    (goal = old → newRamp old goal g0 n r = r) ∧
    (goal ≠ old → goal = g0 → newRamp old goal g0 n r = none) ∧
    (goal ≠ old → goal ≠ g0 → ∀ j : Nat,
      (walk (j + 1)).1 = (if j < n then g0 + ((goal - g0) * (j + 1)).tdiv n else goal) ∧
      min g0 goal ≤ (walk (j + 1)).1 ∧ (walk (j + 1)).1 ≤ max g0 goal)) ∧
  ∀ s : State,
    (∀ c : Fin 256, ((rampAll s).mtx.cols[c].cur, (rampAll s).mtx.cols[c].ramp)
      = rampStep1 (s.mtx.cols[c].goal s.mtx.selB) s.mtx.cols[c].cur s.mtx.cols[c].ramp) ∧
    (∀ k, (∃ x, (k, x) ∈ s.mtx.xp) →
      ((xpGet (rampAll s).mtx.xp k).cur, (xpGet (rampAll s).mtx.xp k).ramp)
        = rampStep1 ((xpGet s.mtx.xp k).goal s.mtx.selB) (xpGet s.mtx.xp k).cur (xpGet s.mtx.xp k).ramp)

/-- The check column never fails in a sound matrix: for every crosspoint list, snapshot and pattern the check sum over the rows is
the weighted sum of the columns. A matrix without a fault or a parity error evaluates every column, whatever the gains: the new
values are the saturated products of R178, a column whose value saturates counts, and no fault arises; a lane error does raise
one and discards C_k, and so does a parity error of a gain in force or of a selected target; TICK_BOUNDARY brings the entries that
have lost their parity (R177 to R179, R189 to R191). -/
def Obligations.MatrixEvaluates : Prop :=
  (∀ s : State, checkSum s.mtx.xp s.mtx.snap s.mtx.pattern
    = resultSum (vof fun c => colSum s.mtx.xp s.mtx.snap c.val) s.mtx.pattern 0) ∧
  (∀ s : State, s.mtx.fault = none → s.mtx.resumed = none →
    (∃ p ∈ s.mtx.parity, p.2 = .cur ∨ p.2 = (if s.mtx.selB then .setB else .setA)) →
    (evaluate 0 s).mtx.fault = some { held := s.mtx.raw, j := 0, second := false }) ∧
  ∀ s : State, s.mtx.fault = none → s.mtx.parity = [] →
    let u := rampAll s
    let y := fun c : Fin 256 =>
      (2 * (colSum u.mtx.xp u.mtx.snap c.val * u.mtx.cols[c].f * u.mtx.cols[c].cur) + 2 ^ 52) / 2 ^ 53
    (evaluate 0 s).mtx.fault = none ∧
    (∀ c : Fin 256, (evaluate 0 s).mtx.raw[c] = BitVec.ofInt 32 (sat32 (y c)) ∧
      (evaluate 0 s).mtx.cols[c] = { u.mtx.cols[c] with
        sat := if y c = sat32 (y c) then u.mtx.cols[c].sat else satInc u.mtx.cols[c].sat }) ∧
    (∀ e : Int, e ≠ 0 → s.mtx.resumed = none →
      (evaluate e s).mtx.fault = some { held := s.mtx.raw, j := 0, second := false })

/-- CHECK_PATTERN_REPLACE, MATRIX_PARITY_SCAN, MATRIX_RESUME after the 32-tick fade, PRIO_N_SAMPLE and SWEEP_END (R184, R189 to R193).
After a resumption every gain in force is zero and ramps to its target. -/
def Obligations.MatrixRows : Prop :=
  ∀ (s : State) (i : GenId) (pat : BitVec 256) (high : Bool),
    exec (.checkPatternReplace pat) s = .next { s with mtx.pattern := pat } ∧
    (s.mtx.fault = none → s.mtx.parity ≠ [] → s.mtx.resumed = none → Completes .matrixParityScan s fun t =>
      t.mtx.fault = some { held := s.mtx.rawPrev, j := 0, second := false } ∧ t.mtx.xp = s.mtx.xp ∧
      t.mtx.cols = s.mtx.cols ∧ Outside [.mtx, .events] s t) ∧
    (∀ f, s.mtx.fault = some f → 32 ≤ f.j → f.second = false → Completes .matrixResume s fun t =>
      t.mtx.fault = none ∧ t.mtx.parity = [] ∧ t.mtx.resumed = some s.clk.now ∧
      (∀ x ∈ t.mtx.xp, x.2.cur = 0 ∧ (x.2.ramp = none ↔ x.2.goal s.mtx.selB = 0)) ∧
      (∀ c : Fin 256, t.mtx.cols[c].cur = 0 ∧ t.mtx.cols[c].f = 16777216 ∧
        t.mtx.cols[c].ramp = rampTo (s.mtx.cols[c].goal s.mtx.selB) 0 (max s.mtx.cols[c].rc 480)) ∧
      Outside [.mtx, .events] s t) ∧
    (high ≠ s.mtx.prio → Completes (.prioNSample high) s fun t =>
      t.mtx = { s.mtx with prio := high } ∧ t.host.intsrc.getLsbD 4 = true ∧ Outside [.mtx, .events] s t) ∧
    (s.gen[i].ty = .sweep → s.gen[i].stopping = false → s.gen[i].total s.clk.mrate.hz ≤ s.gen[i].ran →
      Completes (.sweepEnd i) s fun t =>
        t.gen[i].stopping = true ∧ (∀ x ∈ t.gen[i].parts, x.a1 = 0) ∧ (∀ k : GenId, k ≠ i → t.gen[k] = s.gen[k]) ∧ Outside [.gen] s t)

/-- TICK_BOUNDARY while the tick runs: the tick counter advances by one, the frame number of a device on a link by one but at the end
of a long tick, the core-cycle count of the tick starts again, and C_(k−1) becomes the previous C (a device that sleeps there, log 48,
is a case of SysSaveSleepReset); while the tick does not run nothing happens (R18, R305, R13). -/
def Obligations.TickBoundary : Prop :=
  ∀ (s : State) (e : Int) (u : List (Fin 131072 × XpPart)),
    (s.clk.tickRun = false → exec (.tickBoundary e u) s = .next (refresh s)) ∧
    (s.clk.tickRun = true → (∀ mask, s.fw.sleep = some (mask, none) → s.fw.q[0] ≠ []) → Completes (.tickBoundary e u) s fun t =>
      t.clk.tick = s.clk.tick + 1 ∧ t.clk.cyc = 0 ∧ t.clk.tickRun = true ∧ t.mtx.colPrev = s.mtx.col ∧
      (s.standalone = true → t.clk.frame = s.clk.frame) ∧
      (s.standalone = false → s.clk.adopts = false → t.clk.frame = s.clk.frame + 1) ∧ t.pending = s.pending)

/-! ### 02 to 06: the sample engines -/

/-- PACKET_ISSUE of an engine that may issue. A packet of one move V[c] to V[d] writes V[d]; a malformed packet sets ILLEGAL and
moves nothing; a WRITE requests its delay bank, and nothing of the packet happens before the grant, which for a line in range
stores WD at the line's write index and advances it; an engine that may not issue does nothing (R39, R46, R50, R56 to R58, R98,
R108, R115, R135). -/
def Obligations.Packets : Prop :=
  ∀ (s : State) (e : EngId),
    (s.eng[e].issuing = false ∨ s.clk.tickRun = false → exec (.packetIssue e) s = .next s) ∧
    (s.eng[e].issuing = true → s.clk.tickRun = true → s.eng[e].pEcc.bad = [] →
      s.eng[e].issued + 1 < s.eng[e].prog.length →
      (∀ d c : Fin 32, d ≠ 0 → s.eng[e].p.get s.eng[e].pc.toNat = BitVec.ofNat 64 (128 * d.val + c.val) →
        Completes (.packetIssue e) s fun t =>
          t.eng[e].regs.v[d] = (if c = 0 then 0 else s.eng[e].regs.v[c]) ∧
          (∀ k : Fin 32, k ≠ d → t.eng[e].regs.v[k] = s.eng[e].regs.v[k]) ∧ t.eng[e].regs.a = s.eng[e].regs.a ∧
          t.eng[e].regs.ac = s.eng[e].regs.ac ∧ t.eng[e].flags = s.eng[e].flags ∧ t.eng[e].d = s.eng[e].d ∧
          t.eng[e].issued = s.eng[e].issued + 1 ∧
          t.eng[e].pc = (if 1 < s.eng[e].rpt then s.eng[e].pc else s.eng[e].pc + 1) ∧
          t.eng[e].rpt = s.eng[e].rpt - 1 ∧ t.eng[e].out = s.eng[e].out ∧ t.eng[e].stopped = false ∧
          (∀ k : EngId, k ≠ e → t.eng[k] = s.eng[k]) ∧ Outside [.eng] s t) ∧
      (decodePacket (s.eng[e].p.get s.eng[e].pc.toNat) = none → Completes (.packetIssue e) s fun t =>
          t.eng[e].flags = s.eng[e].flags ||| 1 ∧ t.eng[e].regs.v = s.eng[e].regs.v ∧ t.eng[e].regs.a = s.eng[e].regs.a ∧
          t.eng[e].regs.ac = s.eng[e].regs.ac ∧ t.eng[e].d = s.eng[e].d ∧ t.eng[e].issued = s.eng[e].issued + 1 ∧
          t.eng[e].pc = (if 1 < s.eng[e].rpt then s.eng[e].pc else s.eng[e].pc + 1) ∧ t.eng[e].stopped = false ∧
          (∀ k : EngId, k ≠ e → t.eng[k] = s.eng[k]) ∧ Outside [.eng] s t)) ∧
    (s.eng[e].pEcc.bad = [] → s.eng[e].issued + 1 < s.eng[e].prog.length →
      (∀ n : Fin 16, s.eng[e].p.get s.eng[e].pc.toNat = BitVec.ofNat 64 (128 * 0x5C + 0x60 + n.val) →
        let d := s.eng[e].desc[fin 64 n.val]
        (s.eng[e].issuing = true → s.clk.tickRun = true → Completes (.packetIssue e) s fun t =>
          t.eng[e] = { s.eng[e] with req := some { bank := bankOf (d.addr d.wNow), waited := 0 } } ∧
          (∀ k : EngId, k ≠ e → t.eng[k] = s.eng[k]) ∧ Outside [.eng] s t) ∧
        (∀ r, s.eng[e].req = some r → r.bank = bankOf (d.addr d.wNow) → (∀ k : EngId, k ≠ e → s.eng[k].req = none) →
          s.eng[e].st = .live → s.tile[tileOf e].mem.wf = true → s.inRange e d false d.wNow = true →
          s.fadedWrite e (d.addr d.wNow / 2048) = false → Completes (.delayBankGrant (tileOf e) r.bank) s fun t =>
            t.eng[e].req = none ∧ (∀ i, i < d.width → t.tile[tileOf e].mem.get (d.addr d.wNow + i) = lane s.eng[e].regs.wd i) ∧
            (∀ a, (∀ i, i < d.width → a ≠ d.addr d.wNow + i) →
              t.tile[tileOf e].mem.get a = s.tile[tileOf e].mem.get a) ∧
            (∀ k : TileId, k ≠ tileOf e → t.tile[k] = s.tile[k]) ∧ t.tile[tileOf e].owner = s.tile[tileOf e].owner ∧
            t.eng[e].desc = s.eng[e].desc.set n.val { d with w := BitVec.ofNat 23 ((d.w.toNat % d.n.toNat + 1) % d.n.toNat) } ∧
            t.eng[e].regs.v = s.eng[e].regs.v ∧ t.eng[e].flags = s.eng[e].flags ∧
            t.eng[e].issued = s.eng[e].issued + 1 ∧ (∀ k : EngId, k ≠ e → t.eng[k] = s.eng[k]) ∧
            Outside [.eng, .tile] s t)))

/-- DELAY_BANK_GRANT serves the oldest request: of two engines of the tile that wait, the packet of the older issues, the lower
position first among equals, and the other waits one more cycle; UNIT_RESULT delivers a due result to its port;
ECC_WRITE_BACK frees the holder and makes the word's check bits right; in a delay memory it waits while an engine waits for the bank
(R40, R58, R144, R146). -/
def Obligations.BanksAndResults : Prop :=
  ∀ (s : State) (e f : EngId) (b : Fin 16),
    (e ≠ f → tileOf e = tileOf f → (∀ r, s.eng[e].req = some r → ∀ q, s.eng[f].req = some q → r.bank = b → q.bank = b →
      (q.waited < r.waited ∨ q.waited = r.waited ∧ e < f) → (∀ k : EngId, k ≠ e → k ≠ f → s.eng[k].req = none) →
      Completes (.delayBankGrant (tileOf e) b) s fun t =>
        t.eng[e].req = none ∧ t.eng[e].issued = s.eng[e].issued + 1 ∧
        t.eng[f] = { s.eng[f] with req := some { bank := b, waited := q.waited + 1 }, stalls := s.eng[f].stalls + 1 } ∧
        (∀ k : EngId, k ≠ e → k ≠ f → t.eng[k] = s.eng[k]))) ∧
    ((∀ k : EngId, s.eng[k].req = none) → exec (.delayBankGrant (tileOf e) b) s = .next s) ∧
    (∀ x : Flight, s.eng[e].flight = [x] → x.left = 0 → Completes (.unitResult e) s fun t =>
      t.eng[e] = { s.eng[e] with
        flight := [],
        regs := match x.unit with
          | .lsu => { s.eng[e].regs with lsuR := x.val }
          | .row => { s.eng[e].regs with row := x.val }
          | .dly => { s.eng[e].regs with dlyR := x.val } } ∧
      (∀ k : EngId, k ≠ e → t.eng[k] = s.eng[k]) ∧ Outside [.eng] s t) ∧
    (∀ a, s.eng[e].pHold = some a → Completes (.eccWriteBack (.p e)) s fun t =>
      t.eng[e].pHold = none ∧ (∀ x ∈ t.eng[e].pEcc.bad, x.1 ≠ a) ∧ t.eng[e].p = s.eng[e].p ∧
      (∀ k : EngId, k ≠ e → t.eng[k] = s.eng[k]) ∧ Outside [.eng] s t) ∧
    (∀ a, s.eng[e].dHold = some a → Completes (.eccWriteBack (.d e)) s fun t =>
      t.eng[e].dHold = none ∧ (∀ x ∈ t.eng[e].dEcc.bad, x.1 ≠ a) ∧ t.eng[e].d = s.eng[e].d ∧
      (∀ k : EngId, k ≠ e → t.eng[k] = s.eng[k]) ∧ Outside [.eng] s t) ∧
    (∀ (t' : TileId) a, s.tile[t'].wb[b] = some a → (∀ k : EngId, s.eng[k].req = none) → Completes (.eccWriteBack (.delay t' b)) s fun t =>
      t.tile[t'].wb[b] = none ∧ (∀ x ∈ t.tile[t'].ecc.bad, x.1 ≠ a) ∧ t.tile[t'].mem = s.tile[t'].mem ∧
      (∀ k : TileId, k ≠ t' → t.tile[k] = s.tile[k]) ∧ Outside [.tile] s t) ∧
    (∀ r, s.eng[e].req = some r → r.bank = b → exec (.eccWriteBack (.delay (tileOf e) b)) s = .next (refresh s))

/-- END_WINDOW judges each program: with no fault bit set its outputs are latched, with one the latch keeps the last good tick and the
engine is to be FAULTED; a program that has not ended has LENGTH; the flag words of an engine in TEST are kept, and a fault among them is
a failure of its run. FAULTED_ENGINE_READOUT orders the engine out of FAULTED at the next boundary, to TEST for 256 ticks or to IDLE;
BIST_COMPLETE gives the result of a run in its last tick, with which, unless the run has shown a fault, the engine leaves TEST at the
boundary; REGION_CLEAR_COMPLETE lets a restarted program start; SCRUB corrects every single-bit error of P space (R35, R45, R62, R63, R68,
R147, R483). -/
def Obligations.EngineRows : Prop :=
  ∀ (s : State) (e : EngId) (bist : List (EngId × Half)),
    (Completes (.endWindow bist) s fun t =>
      (∀ k : EngId, (s.eng[k].st = .live ∨ s.eng[k].st = .candidate) → s.eng[k].clearing = false →
        t.eng[k].stopped = true ∧ t.eng[k].st = s.eng[k].st ∧ t.eng[k].flight = [] ∧
        t.eng[k].maxStall = max s.eng[k].maxStall s.eng[k].stalls ∧ t.eng[k].out = s.eng[k].out ∧
        (s.eng[k].stopped = true → s.eng[k].flags &&& 0x3F = 0 →
          t.eng[k].latch = s.eng[k].out ∧ t.eng[k].sticky = s.eng[k].sticky ||| s.eng[k].flags ∧
          t.eng[k].faultDue = s.eng[k].faultDue) ∧
        (s.eng[k].stopped = false ∨ s.eng[k].flags &&& 0x3F ≠ 0 →
          t.eng[k].latch = s.eng[k].latch ∧ t.eng[k].faultDue = true) ∧
        (s.eng[k].stopped = false → t.eng[k].flags.getLsbD 1 = true)) ∧
      (∀ k : EngId, s.eng[k].st = .test → t.eng[k].st = .test ∧
        t.eng[k].bistBad = (s.eng[k].bistBad || bist.any fun x => decide (x.1 = k) && decide (flagWord x.2 &&& 0x3F ≠ 0))) ∧
      Outside [.eng, .tile, .grp, .events, .fw] s t) ∧
    (∀ retire, s.eng[e].st = .faulted →
      (Completes (.faultedEngineReadout e retire) s fun t =>
        t.fw.sched = s.fw.sched ++ [{ due := .next, change := .readOut e retire }] ∧ Outside [.fw] s t) ∧
      let t := (applyChange (.readOut e retire) false s).2
      t.eng[e].st = (if retire then .idle else .test) ∧ t.eng[e].retired = (s.eng[e].retired || retire) ∧
      t.eng[e].bistLeft = (if retire then s.eng[e].bistLeft else 256) ∧ t.eng[e].desc = .replicate 64 .zero ∧
      (∀ k : EngId, k ≠ e → t.eng[k] = s.eng[k]) ∧ (s.eng[e].holds = false → t.tile = s.tile) ∧
      (∀ k : TileId, k ≠ tileOf e → t.tile[k] = s.tile[k]) ∧ Outside [.eng, .tile] s t) ∧
    (Completes (.regionClearComplete e) s fun t =>
      t.eng[e] = { s.eng[e] with clearing := false } ∧ (∀ k : EngId, k ≠ e → t.eng[k] = s.eng[k]) ∧ Outside [.eng] s t) ∧
    (∀ ok, s.eng[e].st = .test →
      (Completes (.bistComplete e ok) s fun t =>
        t.eng[e] = (if s.eng[e].bistLeft = 1 then { s.eng[e] with bist := some ok } else s.eng[e]) ∧
        (∀ k : EngId, k ≠ e → t.eng[k] = s.eng[k]) ∧ Outside [.eng] s t) ∧
      (1 < s.eng[e].bistLeft → (bistTick e s).eng[e] = { s.eng[e] with bistLeft := s.eng[e].bistLeft - 1 }) ∧
      (s.eng[e].bistLeft = 1 → s.eng[e].bist = some ok → (bistTick e s).eng[e] =
        (if ok && !s.eng[e].bistBad then { s.eng[e] with st := .spare, bistLeft := 0 } else { s.eng[e] with st := .idle, bistLeft := 0, retired := true }) ∧
        (s.evOn 0x8507 = true → s.evRoom = true →
          (bistTick e s).fw.q[2] = s.fw.q[2] ++ [mkEvent s 0x8507 [wordN e.val, wordN (if ok && !s.eng[e].bistBad then 0 else 1)]]))) ∧
    (Completes .scrub s fun t =>
      (∀ k : EngId, s.eng[k].pHold = none → t.eng[k].pEcc.bad = [] ∧ t.eng[k].p = s.eng[k].p ∧ t.eng[k].d = s.eng[k].d ∧
        t.eng[k].par0 = s.eng[k].par0 ∧ t.eng[k].par1 = s.eng[k].par1 ∧
        t.eng[k].pCorr = satAdd s.eng[k].pCorr (s.eng[k].pEcc.bad.filter fun x => x.2 = .single).length) ∧
      (∀ k : TileId, t.tile[k].mem = s.tile[k].mem ∧ t.tile[k].owner = s.tile[k].owner) ∧
      Outside [.eng, .tile, .events, .fw] s t)

/-- AUDITION_PASS, AUDITION_START, only at the boundary where its start is due, and AUDITION_TIMEOUT, the end of a crossfade and of a bank
copy, a commit group that is ready, a fault restart that finds a spare and one that gives up, and the maintenance migration (R152, R161,
R163, R167, R169, R170, R172, R392). -/
def Obligations.AuditionRows : Prop :=
  ∀ (s : State) (g : GrpId),
    (∀ a, s.audOf g = some a → a.verdict = .running → a.n ≤ a.ran → a.waiting = false →
      Completes (.auditionPass g) s fun t =>
        t.grp[g] = { s.grp[g] with aud := some { a with verdict := .pass } } ∧
        (∀ k : GrpId, k ≠ g → t.grp[k] = s.grp[k]) ∧
        t.fw.sched = s.fw.sched ++ (if !a.confirm ∧ a.cgroup = 0 then [{ due := .next, change := .confirm g }] else []) ∧
        Outside [.grp, .events, .fw] s t) ∧
    (∀ a, s.audOf g = some a → a.waiting = true → s.eng[a.cand].st = .spare →
      (s.clk.tickRun = true → s.clk.cyc = 0 → s.startDue g = true → Completes (.auditionStart g) s fun t =>
        t.eng[a.cand].st = .candidate ∧ t.eng[a.cand].grp = some g ∧ t.eng[a.cand].regs = .zero ∧
        t.eng[a.cand].stopped = false ∧ t.eng[a.cand].pc = BitVec.ofNat 14 s.eng[a.cand].prog.entry ∧
        t.grp[g] = { s.grp[g] with aud := some { a with waiting := false } } ∧
        t.fw.sched = s.fw.sched.filter (fun x => !(decide (x.due = .next) && decide (x.change = .audition g))) ∧
        (∀ k : EngId, k ≠ a.cand → t.eng[k] = s.eng[k]) ∧ (∀ k : GrpId, k ≠ g → t.grp[k] = s.grp[k]) ∧
        Outside [.eng, .grp, .fw] s t) ∧
      (s.clk.tickRun = false ∨ s.clk.cyc ≠ 0 ∨ s.startDue g = false → exec (.auditionStart g) s = .next (refresh s))) ∧
    (∀ r, s.audOf g = none → s.sup.restarting = false → s.grp[g].waiting = some r → r.prog.dl = [] → s.fits r.prog = true →
      (s.clk.tick - r.tick).toNat < 64 → (∃ k : EngId, s.eng[k].free = true) →
      Completes (.auditionStart g) s fun t => ∃ a, t.grp[g].aud = some a ∧ a.use = .restart ∧ a.n = 256 ∧ a.k = 480 ∧
        a.confirm = false ∧ a.waiting = true ∧ s.eng[a.cand].free = true ∧ t.eng[a.cand].st = .spare ∧
        t.eng[a.cand].prog = r.prog ∧ (∀ k : EngId, k ≠ a.cand → tileOf k = r.tile → s.eng[k].free = true → tileOf a.cand = r.tile) ∧
        t.fw.sched = s.fw.sched ++ [{ due := .next, change := .audition g }] ∧
        t.grp[g].waiting = none ∧ (∀ k : EngId, k ≠ a.cand → t.eng[k] = s.eng[k]) ∧
        (∀ k : GrpId, k ≠ g → t.grp[k] = s.grp[k]) ∧ Outside [.eng, .tile, .grp, .fw] s t) ∧
    (∀ a, s.audOf g = some a → a.verdict = .pass → a.confirm = true → a.confirmed = false →
      Completes (.auditionTimeout g) s fun t =>
        t.fw.sched = s.fw.sched ++ [{ due := .next, change := .abort g 3 }] ∧ Outside [.fw] s t) ∧
    (s.clk.cyc ≠ 0 → exec (.crossfadeEnd g) s = .next (refresh s)) ∧
    (∀ f o, s.grp[g].xf = some f → f.k ≤ f.j → s.clk.cyc = 0 → f.outgoing = some o → Completes (.crossfadeEnd g) s fun t =>
      t.grp[g] = { s.grp[g] with xf := none } ∧
      (s.eng[o].faultDue = false → t.eng[o].st = .spare ∧ t.eng[o].grp = none) ∧
      (s.eng[o].faultDue = true → t.eng[o].st = .faulted) ∧
      (∀ k : EngId, k ≠ o → t.eng[k] = s.eng[k]) ∧ (∀ k : GrpId, k ≠ g → t.grp[k] = s.grp[k]) ∧
      (∀ k : TileId, k ≠ f.tile → t.tile[k] = s.tile[k]) ∧ Outside [.eng, .tile, .grp] s t) ∧
    (∀ n : Fin 16, n ≠ 0 → s.cgroupReady n = true → s.framed n = false → s.others n = [] →
      (s.waitsFrame n = false → Completes (.commitGroupReady n) s fun t =>
        t.fw.sched = s.fw.sched ++ [{ due := .next, change := .commitGroup n }] ∧ Outside [.fw] s t) ∧
      (s.waitsFrame n = true → exec (.commitGroupReady n) s = .next (refresh s))) ∧
    (∀ o, s.grp[g].copying = true → s.grp[g].owner = some o → s.audOf g = none → (∀ h ∈ s.fw.heldTune, h.1 ≠ g) →
      Completes (.bankCopyComplete g) s fun t =>
        { t.eng[o] with dEcc := s.eng[o].dEcc, dHold := s.eng[o].dHold } =
          (if s.eng[o].bank then { s.eng[o] with par0 := s.eng[o].par1 } else { s.eng[o] with par1 := s.eng[o].par0 }) ∧
        (∀ x ∈ t.eng[o].dEcc.bad, x ∈ s.eng[o].dEcc.bad ∧
          ¬ (parKey (!s.eng[o].bank) 0 ≤ x.1 ∧ x.1 < parKey (!s.eng[o].bank) 0 + 16384)) ∧
        t.grp[g] = { s.grp[g] with copying := false } ∧ (∀ k : EngId, k ≠ o → t.eng[k] = s.eng[k]) ∧
        (∀ k : GrpId, k ≠ g → t.grp[k] = s.grp[k]) ∧ Outside [.eng, .grp] s t) ∧
    (∀ r, s.grp[g].waiting = some r → s.audOf g = none → s.sup.restarting = false → 64 ≤ (s.clk.tick - r.tick).toNat →
      Completes (.restartSpareWaitExpiry g) s fun t =>
      t.grp[g] = { s.grp[g] with waiting := none, givenUp := true } ∧ (∀ k : GrpId, k ≠ g → t.grp[k] = s.grp[k]) ∧
      Outside [.grp, .events] s t) ∧
    (s.fw.migrHours ≠ 0 → s.sup.restarting = false → Completes .maintenanceMigration s fun t =>
      t.fw.sched = s.fw.sched ++ [{ due := .next, change := .engTest s.fw.migrNext }] ∧
      t.fw.migrNext.val = (s.fw.migrNext.val + 1) % 20 ∧ Outside [.fw] s t)

/-- ENG_START of a loaded object in a free group gives it a spare engine and names the next boundary; ENG_REMOVE, ENG_CONFIRM and
ENG_ABORT schedule their change; ENG_AUDITION of SAME places a candidate in the owner's tile with the defaults; each is refused
where R385 and Table 14.6 say so (R158, R159, R167, R171, Tables 06.2, 14.6, 14.11). -/
def Obligations.EngCommands : Prop :=
  ∀ (s : State) (g : GrpId) (h : Fin 8), Serving s →
    (∀ l p e u, s.object (h.val + 1) .program = some l → loaded l s.clk.mrate.budget = some p → s.grp[g].owner = none →
      s.starting.contains g = false → s.directSpare = some e → s.liveCount + s.starting.length < 16 →
      loadLive e g p s = some u →
      Answers .engStart 0x0501 8 4 s (fun m => mword m 2 = wordN (h.val + 1) ∧ mword m 3 = wordN g.val)
        (fun _ => [wordN e.val, s.clk.tick + 1]) (fun _ t =>
        t.fw.sched = s.fw.sched ++ [{ due := .next, change := .start g e }] ∧ t.eng[e].prog = p.info ∧ t.eng[e].p = p.p ∧
        t.eng[e].st = s.eng[e].st ∧ t.eng[e].grp = some g ∧ (∀ k : EngId, k ≠ e → t.eng[k] = s.eng[k]) ∧
        Outside [.resp, .fw, .eng, .tile] s t)) ∧
    (∀ l c a, s.object (h.val + 1) .program = some l → checkObject l s.clk.mrate.budget = .bad c a → ∀ m,
      Request 0x0501 8 4 m s → mword m 2 = wordN (h.val + 1) → mword m 3 = wordN g.val → Completes (.engStart m) s fun t =>
        t.fw.q[0] = s.fw.q[0] ++ [answer m 0x30 c [wordN a]] ∧ Outside [.resp] s t) ∧
    (s.grp[g].owner ≠ none → Answers .engRemove 0x0502 8 3 s (fun m => mword m 2 = wordN g.val) (fun _ => [s.clk.tick + 1])
      (fun _ t => t.fw.sched = s.fw.sched ++ [{ due := .next, change := .remove g }] ∧ Outside [.resp, .fw] s t)) ∧
    (s.grp[g].owner = none → ∀ m, Request 0x0502 8 3 m s → mword m 2 = wordN g.val → Completes (.engRemove m) s fun t =>
      t.fw.q[0] = s.fw.q[0] ++ [answer m 0x20 0 []] ∧ Outside [.resp] s t) ∧
    (∀ o e, s.audOf g = none → s.grp[g].owner = some o → s.tileSpare (tileOf o) = some e →
      Answers .engAudition 0x0503 14 3 s (fun m => mword m 2 = wordN g.val ∧ (placeAudition g (audOfMsg m s.link.tunnelled e) (s.eng[o]).loading s).isSome = true)
        (fun m => [wordN e.val, s.audBoundary m none]) (fun _ t =>
        t.grp[g].aud = some { Audition.default .host e true with joined := s.link.tunnelled } ∧ (∀ k : GrpId, k ≠ g → t.grp[k] = s.grp[k]) ∧
        t.eng[e].prog = s.eng[o].prog ∧ t.eng[e].par0 = s.eng[o].par0 ∧ t.eng[e].par1 = s.eng[o].par1 ∧
        t.eng[e].bank = s.eng[o].bank ∧ t.eng[e].st = s.eng[e].st ∧ (∀ k : EngId, k ≠ e → t.eng[k] = s.eng[k]) ∧
        t.fw.sched = s.fw.sched ++ [{ due := .next, change := .audition g }] ∧
        Outside [.resp, .fw, .eng, .tile, .grp] s t)) ∧
    (s.audOf g ≠ none → ∀ m, Request 0x0503 14 3 m s → mword m 2 = wordN g.val → Completes (.engAudition m) s fun t =>
      t.fw.q[0] = s.fw.q[0] ++ [answer m 0x21 0 []] ∧ Outside [.resp] s t) ∧
    (∀ a, s.audOf g = some a → a.verdict = .pass → a.confirm = true → a.confirmed = false → a.cgroup = 0 →
      s.omits a = false → Answers .engConfirm 0x0504 8 3 s (fun m => mword m 2 = wordN g.val) (fun _ => [s.clk.tick + 1])
        (fun _ t => t.grp[g] = { s.grp[g] with aud := some { a with confirmed := true } } ∧
          (∀ k : GrpId, k ≠ g → t.grp[k] = s.grp[k]) ∧
          t.fw.sched = s.fw.sched ++ [{ due := .next, change := .confirm g }] ∧ Outside [.resp, .fw, .grp] s t)) ∧
    (s.audOf g ≠ none → Answers .engAbort 0x0505 8 3 s (fun m => mword m 2 = wordN g.val) (fun _ => [s.clk.tick + 1])
      (fun _ t => t.fw.sched = s.fw.sched ++ [{ due := .next, change := .abort g 0 }] ∧ Outside [.resp, .fw] s t)) ∧
    (s.audOf g = none → ∀ m, Request 0x0505 8 3 m s → mword m 2 = wordN g.val → Completes (.engAbort m) s fun t =>
      t.fw.q[0] = s.fw.q[0] ++ [answer m 0x20 0 []] ∧ Outside [.resp] s t)

/-- ENG_STATUS reports the owner's program, flags and counters; ENG_CLEAR clears what R382 says; ENG_TEST of a free spare or a
FAULTED engine is scheduled, and one of an engine in use is refused; ENG_AUDSTATUS reports the measures of one channel. -/
def Obligations.EngReports : Prop :=
  ∀ (s : State) (g : GrpId) (e : EngId) (c : Fin 12), Serving s →
    (s.grp[g].owner = some e → Answers .engStatus 0x0506 8 3 s (fun m => mword m 2 = wordN g.val)
      (fun _ => [wordN (s.eng[e].st.code + e.val <<< 8) ||| wordN (boolN (s.audOf g).isSome <<< 16),
        s.eng[e].sticky.zeroExtend 32, wordN s.eng[e].prog.length, wordN s.eng[e].prog.allow, wordN s.eng[e].maxStall,
        s.eng[e].pCorr, s.eng[e].dCorr, wordN (s.restarts g).length, s.grp[g].evLost])
      (fun _ t => Outside [.resp] s t)) ∧
    (s.grp[g].owner = some e → Answers .engClear 0x0507 8 3 s (fun m => mword m 2 = wordN g.val) (fun _ => [])
      (fun _ t => t.eng[e] = { s.eng[e] with sticky := 0, maxStall := 0, pCorr := 0, dCorr := 0 } ∧
        t.grp[g] = { s.grp[g] with evLost := 0 } ∧ (∀ k : EngId, k ≠ e → t.eng[k] = s.eng[k]) ∧
        (∀ k : GrpId, k ≠ g → t.grp[k] = s.grp[k]) ∧ Outside [.resp, .eng, .grp] s t)) ∧
    (s.eng[e].st = .faulted ∨ s.eng[e].free = true → Answers .engTest 0x0508 8 3 s (fun m => mword m 2 = wordN e.val)
      (fun _ => []) (fun _ t =>
        t.fw.sched = s.fw.sched ++ [{ due := .next, change := .engTest e }] ∧ Outside [.resp, .fw] s t)) ∧
    (s.eng[e].st = .candidate ∨ s.eng[e].st = .test → ∀ m, Request 0x0508 8 3 m s → mword m 2 = wordN e.val →
      Completes (.engTest m) s fun t => t.fw.q[0] = s.fw.q[0] ++ [answer m 0x21 0 []] ∧ Outside [.resp] s t) ∧
    (∀ a, s.grp[g].aud = some a → Answers .engAudstatus 0x0509 8 4 s
      (fun m => mword m 2 = wordN g.val ∧ mword m 3 = wordN c.val) (fun _ => a.report c) (fun _ t => Outside [.resp] s t))

/-- TUNE_WRITE and TUNE_WRITEH write their values to the shadow array of the owner and of a running candidate, or hold them while
the copy of R152 runs; TUNE_READ returns the live array or the shadow; TUNE_SWAP without a frame is answered after its
boundary, where the banks of the group change places (R150 to R155). -/
def Obligations.TuneCommands : Prop :=
  ∀ (s : State) (g : GrpId) (o : EngId) (off n : Nat), Serving s → s.grp[g].owner = some o → s.eng[o].st = .live →
    off < 16384 → off + n ≤ s.eng[o].prog.pwsize → s.tuneClash g = false →
    (1 ≤ n → n ≤ 22 → Answers .tuneWrite 0x0601 (max 8 (4 + (n + 1) / 2)) (4 + (n + 1) / 2) s
      (fun m => mword m 2 = wordN (g.val + 65536 * off) ∧ mword m 3 = wordN n ∧
        (n % 2 = 1 → fld (mword m (3 + (n + 1) / 2)) 16 16 = 0)) (fun _ => []) (fun m t =>
        (s.grp[g].copying = false → Outside [.resp, .eng] s t ∧
          ∀ k : EngId, t.eng[k] = if (s.tuned g).contains k then Engine.tune off (tuneVals m) s.eng[k] else s.eng[k]) ∧
        (s.grp[g].copying = true → t.fw.heldTune = s.fw.heldTune ++ [(g, off, tuneVals m)] ∧ Outside [.resp, .fw] s t))) ∧
    (∀ (h : Fin 8) l, s.object (h.val + 1) .batch = some l → l.length = 2 * n → 1 ≤ n → s.grp[g].copying = false →
      Answers .tuneWriteh 0x0602 8 5 s
        (fun m => mword m 2 = wordN g.val ∧ mword m 3 = wordN off ∧ mword m 4 = wordN (h.val + 1)) (fun _ => []) (fun _ t =>
        (∀ k : EngId, t.eng[k] = if (s.tuned g).contains k then Engine.tune off (halves l) s.eng[k] else s.eng[k]) ∧
        Outside [.resp, .eng] s t)) ∧
    (1 ≤ n → n ≤ 26 → Answers .tuneRead 0x0603 8 4 s
      (fun m => mword m 2 = wordN (g.val + 65536 * off) ∧ mword m 3 = wordN n)
      (fun _ => packHalves (s.eng[o].liveArray.getMany off n)) (fun _ t => Outside [.resp] s t)) ∧
    (1 ≤ n → n ≤ 26 → Answers .tuneRead 0x0603 8 4 s
      (fun m => mword m 2 = wordN (g.val + 65536 * off + 2 ^ 31) ∧ mword m 3 = wordN n)
      (fun _ => packHalves (s.eng[o].shadowArray.getMany off n)) (fun _ t => Outside [.resp] s t)) ∧
    (∀ m, Request 0x0604 8 3 m s → mword m 2 = wordN (2 ^ g.val) → Completes (.tuneSwap m) s fun t =>
      t.fw.q[0] = s.fw.q[0] ∧
      t.fw.sched = s.fw.sched ++ [{ due := .next, change := .swap (BitVec.ofNat 16 (2 ^ g.val)) (some m) }] ∧
      t.fw.line = [{ key := keyOf m, pos := none, msg := none }] ∧ Outside [.resp, .fw] s t) ∧
    (s.audOf g = none →
      let t := (applyChange (.swap (BitVec.ofNat 16 (2 ^ g.val)) none) false s).2
      t.eng[o] = { s.eng[o] with bank := !s.eng[o].bank } ∧ (∀ k : EngId, k ≠ o → t.eng[k] = s.eng[k]) ∧
      t.grp[g] = { s.grp[g] with copyTo := some (s.clk.tick + 2), copying := true } ∧
      (∀ k : GrpId, k ≠ g → t.grp[k] = s.grp[k]) ∧ Outside [.eng, .grp] s t)

/-! ### 09, 10: the power stage -/

/-- PWR_SET of VFS takes effect on a channel in OFF and is refused in another state, one of HEADROOM takes effect in any state; PWR_GET
returns any setting. PWR_START begins a diagnostic, and one that changes nothing is answered with the channel's state; PWR_STOP takes RUN
quiet with its ramp where R278 allows it and at once otherwise, PWR_DIAG and PWR_LEARN need OFF and RUN; PWR_RESTART ends a latch;
PWR_STATUS reports (R252, R257, R258, R262, R263, R277, R278, Tables 09.3, 10.1, 14.7). -/
def Obligations.PwrCommands : Prop :=
  ∀ (s : State) (c : ChanId) (r : RailId), Serving s →
    (s.pcd.ch[c].st = .off → Answers .pwrSet 0x0701 8 4 s
      (fun m => mword m 2 = wordN (0x40 + 256 * c.val) ∧ 10 ≤ (mword m 3).toNat ∧ (mword m 3).toNat ≤ 600) (fun _ => [])
      (fun m t => t.pcd = { s.pcd with ch := s.pcd.ch.set c.val { s.pcd.ch[c] with cfg.vfs := (mword m 3).toNat } } ∧
        Outside [.resp, .pcd] s t)) ∧
    (s.pcd.ch[c].st ≠ .off → ∀ m, Request 0x0701 8 4 m s → mword m 2 = wordN (0x40 + 256 * c.val) →
      10 ≤ (mword m 3).toNat → (mword m 3).toNat ≤ 600 → Completes (.pwrSet m) s fun t =>
        t.fw.q[0] = s.fw.q[0] ++ [answer m 0x20 0 []] ∧ Outside [.resp] s t) ∧
    Answers .pwrSet 0x0701 8 4 s
      (fun m => mword m 2 = wordN (0x46 + 256 * r.val) ∧ 4 ≤ (mword m 3).toNat ∧ (mword m 3).toNat ≤ 20) (fun _ => [])
      (fun m t => t.pcd = { s.pcd with rail := s.pcd.rail.set r.val { s.pcd.rail[r] with headroom := (mword m 3).toNat } } ∧
        Outside [.resp, .pcd] s t) ∧
    (∀ id i, 0x40 ≤ id → id ≤ 0x50 → i < (settingScope id).2 → Answers .pwrGet 0x0702 8 3 s
      (fun m => mword m 2 = wordN (id + 256 * i)) (fun _ => [wordI (s.pwrVal id i)]) (fun _ t => Outside [.resp] s t)) ∧
    (s.pcd.ch[c].st = .off ∨ s.pcd.ch[c].st = .diagFail ∨ s.pcd.ch[c].st = .locked →
      Answers .pwrStart 0x0703 8 3 s (fun m => mword m 2 = wordN (2 ^ c.val)) (fun _ => []) (fun _ t =>
        t.pcd.ch[c].st = .diag ∧ t.pcd.ch[c].retrying = false ∧ t.pcd.ch[c].diagOnly = false ∧
        (s.pcd.ch[c].st = .locked → t.pcd.ch[c].trips = []) ∧ t.pcd.ch[c].ilimIn = s.pcd.ch[c].cfg.ilim ∧ (∀ k : ChanId, k ≠ c → t.pcd.ch[k] = s.pcd.ch[k]) ∧
        Outside [.resp, .events, .pcd] s t)) ∧
    (s.pcd.ch[c].st = .tripped ∨ s.pcd.ch[c].st = .diag ∨ s.pcd.ch[c].st = .hot ∨ s.pcd.ch[c].st = .railWait ∨
        s.pcd.ch[c].st = .railLatch ∨ s.pcd.ch[c].st = .rampUp →
      Answers .pwrStart 0x0703 8 3 s (fun m => mword m 2 = wordN (2 ^ c.val)) (fun _ => [wordN s.pcd.ch[c].st.code])
        (fun _ t => Outside [.resp] s t)) ∧
    (s.pcd.ch[c].st = .run → s.pcd.ch[c].stopWhy = none → Answers .pwrStop 0x0704 8 3 s
      (fun m => mword m 2 = wordN (2 ^ c.val)) (fun _ => []) (fun _ t =>
        (s.rampOk c = true → t.pcd.ch[c] = { s.pcd.ch[c] with
          wasRun := false, stopWhy := some .stop,
          gch := { s.pcd.ch[c].gch with
            goal := 0, step := if s.pcd.ch[c].rateFall then max s.pcd.ch[c].gch.step (1/480) else 1/480 } }) ∧
        (s.rampOk c = false → t.pcd.ch[c].st = .off ∧ t.pcd.ch[c].duty = 0 ∧ t.pcd.ch[c].wasRun = false) ∧
        (∀ k : ChanId, k ≠ c → t.pcd.ch[k] = s.pcd.ch[k]) ∧ Outside [.resp, .events, .pcd] s t)) ∧
    (s.pcd.ch[c].st.isQuiet = true → Answers .pwrStop 0x0704 8 3 s (fun m => mword m 2 = wordN (2 ^ c.val))
      (fun _ => if s.pcd.ch[c].st = .off then [wordN s.pcd.ch[c].st.code] else [])
      (fun _ t => t.pcd.ch[c].st = .off ∧ (s.pcd.ch[c].st = .off → t.pcd = s.pcd) ∧
        (s.pcd.ch[c].st ≠ .off → t.pcd.ch[c].wasRun = false) ∧ (∀ k : ChanId, k ≠ c → t.pcd.ch[k] = s.pcd.ch[k]) ∧
        Outside [.resp, .events, .pcd] s t)) ∧
    (s.pcd.ch[c].st = .run → s.pcd.ch[c].lsupIn = true → Answers .pwrLearn 0x0705 8 3 s
      (fun m => mword m 2 = wordN (2 ^ c.val)) (fun _ => []) (fun _ t =>
        t.pcd.ch[c] = { s.pcd.ch[c] with learning := true, learn := [] } ∧
        (∀ k : ChanId, k ≠ c → t.pcd.ch[k] = s.pcd.ch[k]) ∧ Outside [.resp, .pcd] s t)) ∧
    (s.pcd.ch[c].st ≠ .run ∨ s.pcd.ch[c].lsupIn = false → ∀ m, Request 0x0705 8 3 m s → mword m 2 = wordN (2 ^ c.val) →
      Completes (.pwrLearn m) s fun t => t.fw.q[0] = s.fw.q[0] ++ [answer m 0x20 0 []] ∧ Outside [.resp] s t) ∧
    (∀ sig, s.pcd.ch[c].zSig = some sig → s.pcd.ch[c].ntcBad = false → Answers .pwrStatus 0x0706 8 3 s
      (fun m => mword m 2 = wordN c.val) (fun _ =>
        let x := s.pcd.ch[c]
        [wordN x.st.code, wordN x.cls, wordN x.diag.gndA, wordN x.diag.gndB, wordN x.diag.supA, wordN x.diag.supB,
          wordN x.diag.load, wordN (sqrtNear (sq2 x.zNow.1 x.zNow.2)), wordN (sqrtNear (1000000 * delta2 x.zNow sig)),
          wordI (roundHalfUp (x.gth * 10)), x.clip, wordN (s.trips60 c).length, wordI (meanTenths x.ntc)])
      (fun _ t => Outside [.resp] s t)) ∧
    Answers .pwrRestart 0x0707 8 3 s (fun m => mword m 2 = wordN (2 ^ r.val)) (fun _ => []) (fun _ t =>
      t.pcd.rail[r].latched = false ∧ (∀ k : RailId, k ≠ r → t.pcd.rail[k] = s.pcd.rail[k]) ∧
      (∀ k : ChanId, railOf k = r → s.pcd.ch[k].st = .railLatch → t.pcd.ch[k].st = .diag) ∧
      (∀ k : ChanId, railOf k ≠ r ∨ s.pcd.ch[k].st ≠ .railLatch → t.pcd.ch[k] = s.pcd.ch[k]) ∧
      Outside [.resp, .events, .pcd] s t) ∧
    (s.pcd.ch[c].st = .off → Answers .pwrDiag 0x0708 8 3 s (fun m => mword m 2 = wordN (2 ^ c.val)) (fun _ => []) (fun _ t =>
      t.pcd.ch[c] = { s.pcd.ch[c] with diagOnly := true } ∧
      (∀ k : ChanId, k ≠ c → t.pcd.ch[k] = s.pcd.ch[k]) ∧ Outside [.resp, .events, .pcd] s t)) ∧
    (s.pcd.ch[c].st ≠ .off → ∀ m, Request 0x0708 8 3 m s → mword m 2 = wordN (2 ^ c.val) →
      Completes (.pwrDiag m) s fun t => t.fw.q[0] = s.fw.q[0] ++ [answer m 0x20 0 []] ∧ Outside [.resp] s t)

/-- CARRIER_PERIOD drives a channel by its state: RUN takes the clamped modulation index of its first half-period, and of its second at
the second reading of the period; a ramp moves its duty by one step and drives both halves alike; any other state keeps all gates low. The
eighth limited period in a row is a trip, the third trip within 60 s a lock. CURRENT_LIMIT holds both halves at one level, once the shunt
voltage stands at ILIM, and makes the window of the line supervision invalid. The stream watchdog takes every channel quiet, at once
without a reference clock (R241, R243, R249, R250, R266, R267, R269, R279). -/
def Obligations.Modulator : Prop :=
  ∀ (s : State) (c : ChanId) (lowA lowB : Bool),
    (s.pcd.ch[c].st.switching = false → s.pcd.ch[c].limNow = none → s.pcd.ch[c].mid = none →
      Completes (.carrierPeriod c lowA lowB) s fun t =>
      t.pcd.ch[c] = { s.pcd.ch[c] with
        bridgeA := s.pcd.ch[c].bridgeA.still, bridgeB := s.pcd.ch[c].bridgeB.still, half := s.pcd.ch[c].half + 2,
        limited := (false :: s.pcd.ch[c].limited).take 384, tripNow := false } ∧
      t.pcd.ch[c].bridgeA.out = (0, 0) ∧ t.pcd.ch[c].bridgeB.out = (0, 0) ∧
      (∀ k : ChanId, k ≠ c → t.pcd.ch[k] = s.pcd.ch[k]) ∧ t.pcd.rail = s.pcd.rail ∧ Outside [.pcd] s t) ∧
    (s.pcd.ch[c].st = .run → s.pcd.ch[c].limNow = none → s.pcd.ch[c].mid = none → s.pcd.streamLost = false →
      Completes (.carrierPeriod c lowA lowB) s fun t =>
        let u := if c = 0 then { s with pcd.gm := s.pcd.gm.tick } else s
        t.pcd.ch[c].u1 = (u.modIndex c s.pcd.ch[c].half s.pcd.ch[c].pilotN).2 ∧ -1 ≤ t.pcd.ch[c].u1 ∧ t.pcd.ch[c].u1 ≤ 1 ∧
        t.pcd.ch[c].mid = some 0 ∧ t.pcd.ch[c].half = s.pcd.ch[c].half + 1 ∧ t.pcd.ch[c].pipe = s.pcd.ch[c].pipe ∧
        t.pcd.ch[c].st = .run ∧ (lowA = true → t.pcd.ch[c].bridgeA.out = (0, 0)) ∧
        (lowB = true → t.pcd.ch[c].bridgeB.out = (0, 0)) ∧
        (∀ k : ChanId, k ≠ c → t.pcd.ch[k] = s.pcd.ch[k]) ∧ Outside [.pcd] s t) ∧
    (∀ code : BitVec 12, s.pcd.ch[c].mid = some 1 → code ≠ 4095 →
      7 ≤ Rail.meas { s.pcd.rail[railOf c] with code := code } → Rail.meas { s.pcd.rail[railOf c] with code := code } ≤ 64 →
      Completes (.railReading (railOf c) code) s fun t =>
        let u := s.modRail (railOf c) fun x => { x with code := code }
        t.pcd.ch[c].u2 = (u.modIndex c s.pcd.ch[c].half s.pcd.ch[c].pilotN).2 ∧ -1 ≤ t.pcd.ch[c].u2 ∧ t.pcd.ch[c].u2 ≤ 1 ∧
        t.pcd.ch[c].mid = none ∧ t.pcd.ch[c].half = s.pcd.ch[c].half + 1 ∧
        t.pcd.ch[c].pipe =
          pushPipe (t.pcd.ch[c].bridgeA.edge, t.pcd.ch[c].bridgeB.edge) s.pcd.ch[c].pipe ∧
        t.pcd.ch[c].st = s.pcd.ch[c].st ∧ (∀ k : ChanId, railOf k ≠ railOf c → t.pcd.ch[k] = s.pcd.ch[k]) ∧
        Outside [.pcd, .events] s t) ∧
    (s.pcd.ch[c].st = .rampUp → s.pcd.ch[c].limNow = none → s.pcd.ch[c].mid = none →
      Completes (.carrierPeriod c lowA lowB) s fun t =>
      t.pcd.ch[c].duty = min (1/2) (s.pcd.ch[c].duty + s.pcd.ch[c].dutyStep) ∧
      t.pcd.ch[c].toRun = decide (t.pcd.ch[c].duty = 1/2) ∧ t.pcd.ch[c].st = .rampUp ∧
      t.pcd.ch[c].bridgeB.edge = t.pcd.ch[c].bridgeA.edge ∧
      (∀ k : ChanId, k ≠ c → t.pcd.ch[k] = s.pcd.ch[k]) ∧ Outside [.pcd] s t) ∧
    (∀ x, s.pcd.ch[c].st.switching = true → s.pcd.ch[c].limNow = some x → s.pcd.ch[c].mid = none → s.pcd.ch[c].tripNow = false →
      7 ≤ s.pcd.ch[c].limited.length → (s.pcd.ch[c].limited.take 7).all id = true →
      Completes (.carrierPeriod c lowA lowB) s fun t =>
        t.pcd.ch[c].st = (if (s.trips60 c).length < 2 then .tripped else .locked) ∧
        t.pcd.ch[c].trips = s.clk.now :: s.trips60 c ∧ t.pcd.ch[c].duty = 0 ∧ t.pcd.ch[c].gch = .at 0 ∧
        t.pcd.ch[c].bridgeA.out = (0, 0) ∧ t.pcd.ch[c].bridgeB.out = (0, 0) ∧
        (∀ k : ChanId, k ≠ c → t.pcd.ch[k] = s.pcd.ch[k]) ∧ Outside [.pcd, .events] s t) ∧
    (∀ (uv : Int) (step : Fin 8192), s.pcd.ch[c].st.switching = true → s.pcd.ch[c].limNow = none →
      (1000 * s.pcd.ch[c].ilimIn ≤ uv.natAbs → Completes (.currentLimit c lowB uv step) s fun t =>
        t.pcd.ch[c] = { s.pcd.ch[c] with
          limNow := some (lowB, decide (uv < 0)), winBad := true,
          bridgeA := s.pcd.ch[c].bridgeA.hold s.pcd.ch[c].cfg.deadtime step.val (decide (uv < 0)),
          bridgeB := s.pcd.ch[c].bridgeB.hold s.pcd.ch[c].cfg.deadtime step.val (decide (uv < 0)) } ∧
        t.pcd.ch[c].bridgeA.level = some (decide (uv < 0)) ∧ t.pcd.ch[c].bridgeB.level = some (decide (uv < 0)) ∧
        (∀ k : ChanId, k ≠ c → t.pcd.ch[k] = s.pcd.ch[k]) ∧ t.pcd.rail = s.pcd.rail ∧ Outside [.pcd] s t) ∧
      (uv.natAbs < 1000 * s.pcd.ch[c].ilimIn → exec (.currentLimit c lowB uv step) s = .next (refresh s))) ∧
    (∀ gap : Nat, s.pcd.streamLost = false → s.pcd.watch ≤ gap → Completes (.pcdStreamWatchdog gap false) s fun t =>
      t.pcd.streamLost = true ∧ t.pcd.quiet = true ∧ (∀ k : ChanId, t.pcd.ch[k].st.switching = false) ∧
      (∀ k : ChanId, s.pcd.ch[k].st.switching = false → t.pcd.ch[k] = s.pcd.ch[k]) ∧
      (∀ k : RailId, t.pcd.rail[k] = { s.pcd.rail[k] with bg := false }) ∧ Outside [.pcd, .events] s t) ∧
    (∀ gap : Nat, s.pcd.streamLost = true ∨ gap < s.pcd.watch → exec (.pcdStreamWatchdog gap lowA) s = .next (refresh s))

/-- The rail rows. A reading stores its code; from the eighth overvoltage in a row on the controller latches, and the eighth takes the channels of
a latched group to RAIL_LATCH again; from the 64th undervoltage on the group's switching channels go to RAIL_WAIT, and so does one that tripped in
the same carrier period; a recovery of 100 ms restarts them; a feedback lost for 1 ms latches; an overload of 1 ms is reported once a second; a
boost period moves r_n and lets BGn switch unless it is held low, up to BILIM or 86 % of the period (that VBATS is refreshed in group 0's
periods is log 146) (R253 to R257, R262, R268, Table 09.5). -/
def Obligations.Rails : Prop :=
  ∀ (s : State) (r : RailId),
    (∀ code : BitVec 12, code ≠ 4095 → 7 ≤ Rail.meas { s.pcd.rail[r] with code := code } →
      Rail.meas { s.pcd.rail[r] with code := code } ≤ 64 → (∀ c : ChanId, railOf c = r → s.pcd.ch[c].mid = none) →
      Completes (.railReading r code) s fun t =>
        t.pcd.rail[r].code = code ∧ t.pcd.rail[r].overRun = 0 ∧ t.pcd.rail[r].underRun = 0 ∧ t.pcd.ch = s.pcd.ch ∧
        t.pcd.rail[r].latched = s.pcd.rail[r].latched ∧ (∀ k : RailId, k ≠ r → t.pcd.rail[k] = s.pcd.rail[k]) ∧
        Outside [.pcd, .events] s t) ∧
    (s.pcd.rail[r].overRun = 7 ∨ 7 ≤ s.pcd.rail[r].overRun ∧ s.pcd.rail[r].latched = false → Completes (.railReading r 4095) s fun t =>
      t.pcd.rail[r].latched = true ∧ t.pcd.rail[r].bg = false ∧
      (∀ c : ChanId, railOf c = r → t.pcd.ch[c].st = .railLatch) ∧
      (∀ c : ChanId, railOf c ≠ r → t.pcd.ch[c] = s.pcd.ch[c]) ∧ (∀ k : RailId, k ≠ r → t.pcd.rail[k] = s.pcd.rail[k]) ∧
      Outside [.pcd, .events] s t) ∧
    (63 ≤ s.pcd.rail[r].underRun → (∀ c : ChanId, s.pcd.ch[c].st.switching = false → s.pcd.ch[c].mid = none) →
      Completes (.railReading r 0) s fun t =>
      (∀ c : ChanId, railOf c = r → s.pcd.ch[c].st.switching = true ∨
          s.pcd.ch[c].tripNow = true ∧ (s.pcd.ch[c].st = .tripped ∨ s.pcd.ch[c].st = .locked) →
        t.pcd.ch[c].st = .railWait) ∧
      (∀ c : ChanId, railOf c ≠ r ∨
        s.pcd.ch[c].st.switching = false ∧ (s.pcd.ch[c].tripNow = false ∨ s.pcd.ch[c].st ≠ .tripped ∧ s.pcd.ch[c].st ≠ .locked) →
        t.pcd.ch[c] = s.pcd.ch[c]) ∧
      t.pcd.rail[r].latched = s.pcd.rail[r].latched ∧ Outside [.pcd, .events] s t) ∧
    (∀ (uv mv : Nat), Completes (.boostPeriod r uv mv) s fun t =>
      let u := if r = 0 ∧ s.pcd.rail[r].bp % 2 = 0 then { s with pcd.vbatsMv := mv } else s
      t.pcd.vbatsMv = u.pcd.vbatsMv ∧ 0 ≤ t.pcd.rail[r].bgOn ∧ t.pcd.rail[r].bgOn ≤ 86/100 ∧
      (t.pcd.rail[r].bg = false → t.pcd.rail[r].bgOn = 0) ∧ t.pcd.rail[r].ref = u.nextRef r ∧ t.pcd.rail[r].bp = s.pcd.rail[r].bp + 1 ∧
      t.pcd.rail[r].bg = (s.pcd.rail[r].mode.boosting && !s.pcd.rail[r].latched && !s.pcd.rail[r].highHold && !s.pcd.rail[r].idle && !s.pcd.quiet
        && !s.pcd.supplyLow && !s.diagHold r && decide (s.pcd.rail[r].meas ≤ u.nextRef r)) ∧
      t.pcd.rail[r].atLimit = (t.pcd.rail[r].bg &&
        decide (1000 * s.pcd.rail[r].bilim ≤ min (Config.currentDemand t.pcd.rail[r].ref s.pcd.rail[r].meas) uv)) ∧
      (s.pcd.rail[r].idle = true → t.pcd.rail[r].ref = u.vfloor r ∧ t.pcd.rail[r].bg = false) ∧
      (s.pcd.rail[r].idle = false → s.pcd.rail[r].mode = .fixed → t.pcd.rail[r].ref = (s.pcd.rail[r].vmaxIn : Rat) / 2) ∧
      (s.pcd.rail[r].mode = .pass → t.pcd.rail[r].bg = false) ∧ t.pcd.ch = s.pcd.ch ∧
      (∀ k : RailId, k ≠ r → t.pcd.rail[k] = s.pcd.rail[k]) ∧ Outside [.pcd, .events] s t) ∧
    (s.pcd.rail[r].upRun < s.readings 100 → exec (.railRecovery r) s = .next (refresh s)) ∧
    (s.readings 100 ≤ s.pcd.rail[r].upRun → s.pcdHeld = false → Completes (.railRecovery r) s fun t =>
      (∀ c : ChanId, railOf c = r → s.pcd.ch[c].st = .railWait → t.pcd.ch[c].st = .rampUp) ∧
      (∀ c : ChanId, railOf c ≠ r ∨ s.pcd.ch[c].st ≠ .railWait → t.pcd.ch[c] = s.pcd.ch[c]) ∧
      (∀ k : RailId, { t.pcd.rail[k] with idle := s.pcd.rail[k].idle } = s.pcd.rail[k] ∧
        (k ≠ r → t.pcd.rail[k] = s.pcd.rail[k])) ∧ Outside [.pcd, .events] s t) ∧
    (s.readings 1 ≤ s.pcd.rail[r].fbRun →
      Completes (.feedbackLost r) s fun t =>
        t.pcd.rail[r].latched = true ∧ t.pcd.rail[r].bg = false ∧
        (∀ c : ChanId, railOf c = r → t.pcd.ch[c].st = .railLatch) ∧
        (∀ c : ChanId, railOf c ≠ r → t.pcd.ch[c] = s.pcd.ch[c]) ∧ Outside [.pcd, .events] s t) ∧
    (s.halfRate ≤ 1000 * s.pcd.rail[r].ovlRun → s.pcd.rail[r].ovlNext ≤ s.clk.now →
      Completes (.boostOverload r) s fun t =>
        t.pcd.rail[r] = { s.pcd.rail[r] with ovlNext := s.clk.now + second } ∧
        (∀ k : RailId, k ≠ r → t.pcd.rail[k] = s.pcd.rail[k]) ∧ t.pcd.ch = s.pcd.ch ∧ Outside [.pcd, .events] s t)

/-- Protection. A diagnostic classifies the load and leads to RAMP_UP, DIAG_FAIL or a trip; one of PWR_DIAG leaves the channel in OFF (the
model's reading, log 119); a retry is a diagnostic with the settings as they stand; DC is a trip; a digital DC that has lasted 1 s mutes,
is reported after 100 ms and restores after 1 s without it; hot readings stop a running channel; an impedance window is stored, one that
is not valid is skipped; a low supply takes every gate low and its return restarts; MUTE_N moves g_m only (R262 to R265, R269 to R271,
R273, R275, R276, R281, R454). -/
def Obligations.Protection : Prop :=
  ∀ (s : State) (c : ChanId),
    (∀ v : DiagVals, s.pcd.ch[c].st = .off → s.pcd.ch[c].diagOnly = true → Completes (.diagnosticComplete c v) s fun t =>
      t.pcd.ch[c] = { s.pcd.ch[c] with cls := loadClass v, diag := v, diagOnly := false } ∧
      (∀ k : ChanId, k ≠ c → t.pcd.ch[k] = s.pcd.ch[k]) ∧ t.pcd.rail = s.pcd.rail ∧ Outside [.pcd, .events] s t) ∧
    (∀ v : DiagVals, s.pcd.ch[c].st = .diag → Completes (.diagnosticComplete c v) s fun t =>
      t.pcd.ch[c].cls = loadClass v ∧ t.pcd.ch[c].diag = v ∧
      (loadClass v = 6 → s.pcdHeld = false → t.pcd.ch[c].st = .rampUp ∧ t.pcd.ch[c].duty = 0) ∧
      (loadClass v ≠ 6 → s.pcd.ch[c].retrying = false → t.pcd.ch[c].st = .diagFail) ∧
      (loadClass v ≠ 6 → s.pcd.ch[c].retrying = true →
        t.pcd.ch[c].st = if (s.trips60 c).length < 2 then .tripped else .locked) ∧
      (∀ k : ChanId, k ≠ c → t.pcd.ch[k] = s.pcd.ch[k]) ∧
      (∀ k : RailId, { t.pcd.rail[k] with idle := s.pcd.rail[k].idle } = s.pcd.rail[k] ∧
        (k ≠ railOf c → t.pcd.rail[k] = s.pcd.rail[k])) ∧ Outside [.pcd, .events] s t) ∧
    (s.pcd.ch[c].st = .tripped → Completes (.retryIntervalExpiry c) s fun t =>
      t.pcd.ch[c] = { s.pcd.ch[c] with
        st := .diag, retrying := true, diagOnly := false, ilimIn := s.pcd.ch[c].cfg.ilim, lsupIn := s.pcd.ch[c].cfg.lsup } ∧
      (∀ k : ChanId, k ≠ c → t.pcd.ch[k] = s.pcd.ch[k]) ∧ Outside [.pcd, .events] s t) ∧
    (s.pcd.ch[c].st.switching = true → Completes (.dcDetection c) s fun t =>
      t.pcd.ch[c].st = (if (s.trips60 c).length < 2 then .tripped else .locked) ∧ t.pcd.ch[c].duty = 0 ∧
      (∀ k : ChanId, k ≠ c → t.pcd.ch[k] = s.pcd.ch[k]) ∧ Outside [.pcd, .events] s t) ∧
    (s.pcd.ch[c].gdc.goal = 1 → 0 ≤ s.pcd.ch[c].gdc.v → second ≤ s.pcd.ch[c].dcHigh → Completes (.digitalDcMute c) s fun t =>
      t.pcd.ch[c] = { s.pcd.ch[c] with
        gdc := { s.pcd.ch[c].gdc with goal := 0, step := s.pcd.ch[c].gdc.v / 480 }, dcAcc := [], dcTicks := 0,
        dcUntil := s.clk.now + second / 10, dcOpen := true } ∧
      (∀ k : ChanId, k ≠ c → t.pcd.ch[k] = s.pcd.ch[k]) ∧ Outside [.pcd] s t) ∧
    (s.pcd.ch[c].dcHigh < second → exec (.digitalDcMute c) s = .next (refresh s)) ∧
    (s.clk.now < s.pcd.ch[c].dcUntil → exec (.dcMuteReport c) s = .next (refresh s)) ∧
    (s.pcd.ch[c].dcOpen = true → s.pcd.ch[c].dcUntil ≤ s.clk.now → Completes (.dcMuteReport c) s fun t =>
      t.pcd.ch[c] = { s.pcd.ch[c] with dcAcc := [], dcOpen := false } ∧ (∀ k : ChanId, k ≠ c → t.pcd.ch[k] = s.pcd.ch[k]) ∧
      Outside [.pcd, .events] s t) ∧
    (s.pcd.ch[c].gdc.goal = 0 → s.pcd.ch[c].gdc.v ≤ 1 → second ≤ s.pcd.ch[c].dcLow → Completes (.dcMuteRestore c) s fun t =>
      t.pcd.ch[c] = { s.pcd.ch[c] with
        gdc := { s.pcd.ch[c].gdc with goal := 1, step := (1 - s.pcd.ch[c].gdc.v) / 480 } } ∧
      (∀ k : ChanId, k ≠ c → t.pcd.ch[k] = s.pcd.ch[k]) ∧ Outside [.pcd, .events] s t) ∧
    (∀ x : Temps, Completes (.thermalReading x) s fun t =>
      t.pcd.pcdT = (x.pcd :: s.pcd.pcdT).take 8 ∧ t.pcd.dieT = (x.die :: s.pcd.dieT).take 8 ∧
      (∀ k : ChanId, s.pcd.ch[k].ntcBad = false → -500 ≤ x.ntc[k] → x.ntc[k] ≤ 1700 →
        t.pcd.ch[k].ntc = (x.ntc[k] :: s.pcd.ch[k].ntc).take 8 ∧ t.pcd.ch[k].ntcBad = false) ∧
      (∀ k : ChanId, x.ntc[k] < -500 ∨ 1700 < x.ntc[k] → t.pcd.ch[k].ntcBad = true ∧ t.pcd.ch[k].ntc = s.pcd.ch[k].ntc) ∧
      ((∀ y ∈ (x.pcd :: s.pcd.pcdT).take 8, s.pcd.tStopDie * 10 ≤ y) → s.pcd.ch[c].st = .run → s.pcd.ch[c].stopWhy = none →
        t.pcd.ch[c].stopWhy = some .thermal ∨ t.pcd.ch[c].st = .hot) ∧ Outside [.pcd, .events] s t) ∧
    (∀ z : LineZ, s.pcd.ch[c].st = .run → s.pcd.ch[c].lsupIn = true → s.pcd.ch[c].winBad = false →
      (s.clk.mrate.cycles ≠ 8192 ∨ z.loud = false) → Completes (.lineSupervisionWindow c z) s fun t =>
        t.pcd.ch[c].zNow = (z.re, z.im) ∧
        (s.pcd.ch[c].learning = false → s.pcd.ch[c].zSig = none →
          t.pcd.ch[c] = { s.pcd.ch[c] with zNow := (z.re, z.im), lsdevIn := s.pcd.ch[c].cfg.lsdev }) ∧
        (s.pcd.ch[c].learning = true → s.pcd.ch[c].learn.length < 9 →
          t.pcd.ch[c].learn = (z.re, z.im) :: s.pcd.ch[c].learn ∧ t.pcd.ch[c].learning = true) ∧
        (s.pcd.ch[c].learning = true → s.pcd.ch[c].learn.length = 9 →
          t.pcd.ch[c].learning = false ∧ t.pcd.ch[c].zSig ≠ none) ∧
        (∀ k : ChanId, k ≠ c → t.pcd.ch[k] = s.pcd.ch[k]) ∧ Outside [.pcd, .events, .boot, .peri] s t) ∧
    (∀ z : LineZ, s.pcd.ch[c].st = .run → s.pcd.ch[c].lsupIn = true →
      s.pcd.ch[c].winBad = true ∨ s.clk.mrate.cycles = 8192 ∧ z.loud = true → Completes (.lineSupervisionWindow c z) s fun t =>
        t.pcd.ch[c] = { s.pcd.ch[c] with winBad := false, lsdevIn := s.pcd.ch[c].cfg.lsdev } ∧
        (∀ k : ChanId, k ≠ c → t.pcd.ch[k] = s.pcd.ch[k]) ∧ Outside [.pcd] s t) ∧
    (Completes .pcdSupplyLow s fun t =>
      t.pcd.supplyLow = true ∧ t.pcd.quiet = true ∧ (∀ k : ChanId, t.pcd.ch[k].st.switching = false) ∧
      (∀ k : ChanId, s.pcd.ch[k].st = .run → t.pcd.ch[k].wasRun = true) ∧
      (∀ k : ChanId, s.pcd.ch[k].st.switching = false → t.pcd.ch[k] = s.pcd.ch[k]) ∧
      (∀ k : RailId, t.pcd.rail[k] = { s.pcd.rail[k] with bg := false }) ∧ Outside [.pcd, .events] s t) ∧
    (s.pcd.supplyLow = true → s.sup.quiet = 0 → Completes .pcdSupplyRestored s fun t =>
      t.pcd.supplyLow = false ∧ t.pcd.streamLost = false ∧ t.pcd.quiet = false ∧
      (∀ k : ChanId, s.pcd.ch[k].wasRun = true → s.pcd.ch[k].st = .off → t.pcd.ch[k].st = .diag ∧ t.pcd.ch[k].wasRun = false) ∧
      (∀ k : ChanId, s.pcd.ch[k].wasRun = false ∨ s.pcd.ch[k].st ≠ .off → t.pcd.ch[k] = s.pcd.ch[k]) ∧
      Outside [.pcd, .events] s t) ∧
    (∀ high, s.pcd.muteHigh ≠ high → Completes (.muteNChange high) s fun t =>
      t.pcd.muteHigh = high ∧ t.pcd.gm.goal = (if high then 1 else 0) ∧ t.pcd.gm.v = s.pcd.gm.v ∧ t.pcd.ch = s.pcd.ch ∧
      t.pcd.rail = s.pcd.rail ∧ t.host.intsrc.getLsbD 3 = true ∧ Outside [.pcd, .events] s t)

/-! ### 12: the ridge link -/

/-- LINK commands. A manager grants ring channels, declares twins, and forwards commands to a worker through the tunnel; a device binds a
column to a granted channel from the next boundary on and a tap to a channel; the summit admits and releases routes, and a sink's manager
asks it for its host; a lane test starts and ends; LINK_STATUS reports. Each is refused where R330, R341 and Table 14.7 say so (R330,
R335, R336, R339 to R341, R378, R445). -/
def Obligations.LinkCommands : Prop :=
  ∀ (s : State) (i : Fin 64) (j : Fin 128) (a b : Fin 32) (ch n : Nat), Serving s →
    (∀ m, Request 0x0801 8 2 m s → Completes (.linkStatus m) s fun t => ∃ first h : Word,
      first &&& 0xFFFF = s.posWord ∧
      t.fw.q[0] = s.fw.q[0] ++ [answer m 0 0 [first, s.upMask, s.clk.frame, s.link.errEast, s.link.errWest, s.link.errSpur0,
        s.link.errSpur1, h]] ∧
      t.fw.bulkOut = s.fw.bulkOut ++ fragments (h.truncate 16) s.inventory.length 0 s.inventory ∧ Outside [.resp, .fw] s t) ∧
    (s.member = true → s.link.active = true → 1 ≤ n → n ≤ 64 → ch + n ≤ s.linkChannels 0 →
      (∀ g ∈ s.link.grants, g.2 < ch ∨ ch + n ≤ g.2) → Answers .linkGrant 0x0802 8 5 s
        (fun m => mword m 2 = wordN a.val ∧ mword m 3 = wordN ch ∧ mword m 4 = wordN n) (fun _ => []) (fun _ t =>
        t.link = { s.link with grants := s.link.grants ++ (List.range n).map fun k => (a.val, ch + k) } ∧
        Outside [.resp, .link] s t)) ∧
    (s.member = true → s.link.active = true → 1 ≤ n → n ≤ 64 → ch + n ≤ s.linkChannels 0 →
      (∃ g ∈ s.link.grants, ch ≤ g.2 ∧ g.2 < ch + n) → ∀ m, Request 0x0802 8 5 m s → mword m 2 = wordN a.val →
      mword m 3 = wordN ch → mword m 4 = wordN n → Completes (.linkGrant m) s fun t =>
        t.fw.q[0] = s.fw.q[0] ++ [answer m 0x26 0 []] ∧ Outside [.resp] s t) ∧
    (s.member = false ∨ s.link.active = false → ch < 896 → ∀ m, Request 0x0802 8 5 m s → mword m 2 = wordN a.val →
      mword m 3 = wordN ch → mword m 4 = 1 → Completes (.linkGrant m) s fun t =>
        t.fw.q[0] = s.fw.q[0] ++ [answer m 0x24 0 []] ∧ Outside [.resp] s t) ∧
    (s.link.active = true → s.link.grantsAll = true → s.standalone = false → s.link.pos = some a → ch < s.linkChannels 0 →
      s.chanTaken i 0 ch = false →
      ((a.val, ch) ∈ s.link.grants → Answers .linkTx 0x0803 8 4 s (fun m => mword m 2 = wordN i.val ∧ mword m 3 = wordN ch)
        (fun _ => []) (fun _ t =>
        t.fw.sched = s.fw.sched ++ [{ due := .next, change := .tx i (some (0, ch)) }] ∧ Outside [.resp, .fw] s t)) ∧
      ((∀ g ∈ s.link.grants, g ≠ (a.val, ch)) → ∀ m, Request 0x0803 8 4 m s → mword m 2 = wordN i.val → mword m 3 = wordN ch →
        Completes (.linkTx m) s fun t => t.fw.q[0] = s.fw.q[0] ++ [answer m 0x20 0 []] ∧ Outside [.resp] s t)) ∧
    (ch < s.linkChannels 0 → Answers .linkTx 0x0803 8 4 s (fun m => mword m 2 = wordN (i.val + 2 ^ 15) ∧ mword m 3 = wordN ch)
      (fun _ => []) (fun _ t =>
        t.fw.sched = s.fw.sched ++ [{ due := .next, change := .tx i none }] ∧ Outside [.resp, .fw] s t)) ∧
    (∀ x moved, applyChange (.tx i x) moved s = (0, { s with link.tx := s.link.tx.set i.val x })) ∧
    (s.standalone = false → s.link.pos ≠ none → ch < s.linkChannels 0 → Answers .linkTap 0x0804 8 5 s
      (fun m => mword m 2 = wordN j.val ∧ mword m 3 = wordN ch ∧ mword m 4 = wordN a.val) (fun _ => []) (fun _ t =>
      t.link = { s.link with taps := s.link.taps.set j.val (some
        { link := 0, chan := ch, owner := a, segid := 0, west := true, val := 0, missing := 0, arrived := 0, fade := .at 0,
          queue := [], route := none }) } ∧ Outside [.resp, .link] s t)) ∧
    (s.standalone = true ∨ s.link.pos = none → ch < 896 → ∀ m, Request 0x0804 8 5 m s → mword m 2 = wordN j.val →
      mword m 3 = wordN ch → mword m 4 = wordN a.val → Completes (.linkTap m) s fun t =>
        t.fw.q[0] = s.fw.q[0] ++ [answer m 0x25 0 []] ∧ Outside [.resp] s t) ∧
    (s.member = true → s.link.active = true → s.hasMember a.val = true → s.hasMember b.val = true → a ≠ b →
      (∀ t ∈ s.link.twins, t.a ≠ a.val ∧ t.b ≠ a.val ∧ t.a ≠ b.val ∧ t.b ≠ b.val) → Answers .linkTwin 0x0805 8 8 s
        (fun m => mword m 2 = wordN a.val ∧ mword m 3 = wordN b.val ∧ pairTwice m = false ∧
          ∀ k, k < 16 → twinByte m k < 16 ∨ twinByte m k = 255) (fun _ => []) (fun m t =>
        t.link = { s.link with twins := s.link.twins ++ [{ a := a.val, b := b.val, pair := twinPair m }] } ∧
        Outside [.resp, .link] s t)) ∧
    ((∃ t ∈ s.link.twins, t.a = a.val) → Answers .linkUntwin 0x0806 8 3 s (fun m => mword m 2 = wordN a.val) (fun _ => [])
      (fun _ t => t.link = { s.link with twins := s.link.twins.filter fun x => decide (x.a ≠ a.val) } ∧
        Outside [.resp, .link] s t)) ∧
    (∀ (sc : Nat) (sp tp : Fin 32) (ss ts : Fin 8) (tap : Fin 128) (bound : Nat), s.summit = true → sc < s.linkChannels 0 →
      1 ≤ bound → bound ≤ 65535 →
      let words := fun m : Msg => mword m 2 = wordN (sc + 65536 * sp.val + 2 ^ 24 * ss.val) ∧
        mword m 3 = wordN (tap.val + 65536 * tp.val + 2 ^ 24 * ts.val) ∧ mword m 4 = wordN bound
      (∀ r, s.admits sc sp.val ss.val tap.val tp.val ts.val bound = some r → Answers .linkAdmit 0x0807 8 5 s words
        (fun _ => [wordN r.id, wordN r.lat]) (fun _ t => t.link.routes = s.link.routes ++ [r] ∧
          t.link.nextRoute = (s.link.nextRoute + 1) % 4096 ∧ t.link.grants = s.link.grants ∧
          (∃ k, t.link.admitOut = s.link.admitOut ++ [k] ∧ k.kind = 2 ∧ k.elems = r.elems) ∧ Outside [.resp, .link, .mtx] s t)) ∧
      (s.admits sc sp.val ss.val tap.val tp.val ts.val bound = none → ∀ m, Request 0x0807 8 5 m s → words m →
        Completes (.linkAdmit m) s fun t => t.fw.q[0] = s.fw.q[0] ++ [answer m 0x22 0 []] ∧ Outside [.resp] s t)) ∧
    (∀ id : BitVec 12, s.summit = true → (∃ r ∈ s.link.routes, r.id = id.toNat) → Answers .linkRelease 0x0808 8 3 s
      (fun m => mword m 2 = wordN id.toNat) (fun _ => []) (fun _ t =>
        t.link.routes = s.link.routes.filter (fun r => decide (r.id ≠ id.toNat)) ∧
        (∀ b ∈ t.link.bridges, b.route ≠ id.toNat) ∧ Outside [.resp, .link, .mtx] s t)) ∧
    (∀ (sc : Nat) (sp tp : Fin 32) (ss ts : Fin 8) (tap : Fin 128) (bound : Nat), sc < s.linkChannels 0 → 1 ≤ bound → bound ≤ 65535 →
      ∀ m, Request 0x0807 8 5 m s → mword m 2 = wordN (sc + 65536 * sp.val + 2 ^ 24 * ss.val) →
      mword m 3 = wordN (tap.val + 65536 * tp.val + 2 ^ 24 * ts.val) → mword m 4 = wordN bound →
      (s.asksFor ts.val = true → Completes (.linkAdmit m) s fun t =>
        t.link = { s.link with asks := s.link.asks ++ [m], admitOut := s.link.admitOut ++ [s.askMsg m] } ∧ t.fw.q[0] = s.fw.q[0] ∧
        t.fw.line = [{ key := keyOf m, pos := none, msg := none }] ∧ Outside [.resp, .link] s t) ∧
      (s.asksFor ts.val = false → s.summit = false → Completes (.linkAdmit m) s fun t =>
        t.fw.q[0] = s.fw.q[0] ++ [answer m 0x24 0 []] ∧ Outside [.resp] s t)) ∧
    (∀ (p lane : Fin 2), s.standalone = false → s.hasBreak = false → (s.link.ports[p.val]).prbs = none →
      Answers .linkPrbs 0x0809 8 3 s (fun m => mword m 2 = wordN (p.val + 16 * lane.val + 256) )
        (fun _ => [(s.link.ports[p.val]).prbsErr]) (fun _ t =>
        (t.link.ports[p.val]).prbs = some lane ∧ (t.link.ports[p.val]).up = false ∧
        (∀ k : RidgeId, k.val ≠ p.val → t.link.ports[k] = s.link.ports[k]) ∧
        (KeepsRidge (fin 3 p.val) s → t.clk = s.clk) ∧ Outside [.resp, .events, .link, .clk] s t)) ∧
    (∀ p : RidgeId, (s.link.ports[p]).prbs ≠ none → ∀ m, Request 0x0809 8 3 m s → mword m 2 = wordN p.val →
      Completes (.linkPrbs m) s fun t => ∃ w : Word, t.fw.q[0] = s.fw.q[0] ++ [answer m 0 0 [w]] ∧
        t.link.ports[p] = { s.link.ports[p] with prbs := none, prbsErr := w } ∧
        (∀ k : RidgeId, k ≠ p → t.link.ports[k] = s.link.ports[k]) ∧ Outside [.resp, .link] s t) ∧
    (∀ (p : RidgeId) (g : Fin 16), Answers .linkCfg 0x080A 8 4 s (fun m => mword m 2 = wordN p.val ∧ mword m 3 = wordN g.val)
      (fun _ => []) (fun _ t => t.link.ports[p] = { s.link.ports[p] with losGpio := some g, los := false } ∧
        (∀ k : RidgeId, k ≠ p → t.link.ports[k] = s.link.ports[k]) ∧ Outside [.resp, .link] s t)) ∧
    (∀ (c : Cmd) (m : Msg), cmdOf m = c.code → m.box = 0 → s.fw.q[0].length < 32 → c.len m ≤ m.len.toNat → mword m 1 = 0 →
      fld m.w[0] 24 3 = 4 → s.link.active = true → s.standalone = false → s.link.pos ≠ some (destOf m) →
      s.twinOf (destOf m).val = none → c.sends s m = none → ∃ t, row c "" m s = .next t ∧
        t.link.tunnelOut = s.link.tunnelOut ++ [(destOf m, strip m none)] ∧ t.fw.q[0] = s.fw.q[0] ∧
        t.fw.line = [{ key := keyOf m, pos := some (destOf m), msg := none }] ∧
        (c.code ≠ 0x0503 → c.code ≠ 0x0504 →
          t.link = { s.link with tunnelOut := s.link.tunnelOut ++ [(destOf m, strip m none)] }) ∧ Outside [.link, .resp] s t)

/-- GRAPH_SUBMIT places a graph's modules and connections over the segment, by the graph and the inventory alone: the map goes out at
once, the modules here are auditioned, those elsewhere are on their way, and the whole graph is scheduled for one frame, at least 1,090
after the one in which its schedule can go out; without room it is refused with E_RESOURCE and nothing changes; GRAPH_CLEAR schedules the
end of the present graph. Only the active manager does either (R157, R338, Table 14.8; the frame is the model's, log 52). -/
def Obligations.GraphCommands : Prop :=
  ∀ (s : State) (h : Fin 8) (l : List Byte), Serving s → s.object (h.val + 1) .graph = some l →
    firstOf (graphFails l s.clk.mrate.budget) = none → s.link.pos ≠ none →
    let plan (n : Fin 16) := planGraph l n s.clk.mrate.budget (s.linkChannels 0) s.link.grants s.inventoryFree
    (∀ n x u, s.member = true → s.link.active = true → s.freeCgroup = some n → plan n = some x →
      placePlan l x.plan.cgroup ((List.range x.plan.mods.length).zip x.plan.mods) s = some u → ∀ m,
      Request 0x0901 8 3 m s → mword m 2 = wordN (h.val + 1) → Completes (.graphSubmit m) s fun t => ∃ bulk f more : Word,
        f = s.sendFrame 0 + BitVec.ofNat 32 (1090 + (l.length + 8 * s.routeCount x.plan) / 8) + more ∧ more.toNat < 65536 ∧ t.fw.q[0] = s.fw.q[0] ++ [answer m 0 0 [bulk, f]] ∧
        t.fw.bulkOut = s.fw.bulkOut ++ fragments (bulk.truncate 16) x.plan.map.length 0 x.plan.map ∧
        t.fw.sched = s.fw.sched ++ ((x.plan.here s).map fun g => { due := .next, change := .audition g })
          ++ [{ due := .frame f none, change := .graph (some x.plan) }] ∧
        (∀ y ∈ x.plan.mods, s.isMe y.1.val = false → ∃ j ∈ t.link.jobs, j.pos = y.1) ∧
        t.eng = u.eng ∧ t.tile = u.tile ∧ t.grp = u.grp ∧ Outside [.resp, .fw, .link, .eng, .tile, .grp] s t) ∧
    (s.member = true → s.link.active = true → (∀ n, s.freeCgroup = some n → plan n = none) → ∀ m, Request 0x0901 8 3 m s →
      mword m 2 = wordN (h.val + 1) → Completes (.graphSubmit m) s fun t =>
        t.fw.q[0] = s.fw.q[0] ++ [answer m 0x22 0 []] ∧ Outside [.resp] s t) ∧
    (s.member = false ∨ s.link.active = false → ∀ m, Request 0x0901 8 3 m s → mword m 2 = wordN (h.val + 1) →
      Completes (.graphSubmit m) s fun t => t.fw.q[0] = s.fw.q[0] ++ [answer m 0x24 0 []] ∧ Outside [.resp] s t) ∧
    (s.member = true → s.link.active = true → s.link.graph ≠ none → ∀ m, Request 0x0902 8 2 m s →
      Completes (.graphClear m) s fun t => ∃ f more : Word, f = s.sendFrame (s.clearCount - 1) + 64 + more ∧ more.toNat < 65536 ∧
        t.fw.q[0] = s.fw.q[0] ++ [answer m 0 0 [f]] ∧
        t.fw.sched = s.fw.sched ++ [{ due := .frame f none, change := .graph none }] ∧ Outside [.resp, .fw, .link] s t) ∧
    (s.member = true → s.link.active = true → s.link.graph = none → ∀ m, Request 0x0902 8 2 m s →
      Completes (.graphClear m) s fun t => t.fw.q[0] = s.fw.q[0] ++ [answer m 0x20 0 []] ∧ Outside [.resp] s t)

/-- Ports, breaks and membership of a device on a ring. 64 valid sync headers lock a lane and 16 invalid ones end its lock; a port
that loses its locks goes down, and RIDGE is lost with its last path; a port with its locks comes up; the device next to a break
originates away from it and a return joins it again; a loss of signal takes the port down; a pattern of the neighbour is looped
back; a segment forms with positions that stay with serial numbers, SEGIDs along the chain and the highest counter, and its active manager follows
no ring, or a conflict stops it; the standby takes
over when the heartbeats stop, with the other member as its standby; the limit of holdover leaves the segment (R300, R303, R313 to R315, R320,
R322, R324 to R329, R333, R334, R339, R445). -/
def Obligations.LinkRows : Prop :=
  ∀ (s : State) (p : RidgeId) (lane : Fin 2) (h : Vector (List (BitVec 2)) 2), s.standalone = false →
    let v := hear p lane h s
    (∀ (n : Nat) (x : LaneRx), (x.block = false → (LaneRx.feed n (List.replicate 64 1) x).block = true) ∧
      (LaneRx.feed n (List.replicate 16 0) x).block = false) ∧
    (p ≠ 2 → (s.link.ports[p]).up = true → v.portLocked p lane = false → Completes (.portDown p lane h) s fun t =>
      t.link.ports[p] = { v.link.ports[p] with up := false, lanes := .replicate 2 false, tdist := 255 } ∧
      (∀ k : RidgeId, k ≠ p → t.link.ports[k] = s.link.ports[k]) ∧ (KeepsRidge p s → t.clk = s.clk) ∧
      (s.clk.actSrc = some .ridge → (∀ k : RidgeId, k ≠ 2 → k ≠ p → (s.link.ports[k]).dist = 255) →
        t.clk.hold = true ∧ t.clk.actSrc ≠ some .ridge) ∧ Outside [.link, .clk, .events, .resp] s t) ∧
    (v.portLocked p lane = true → exec (.portDown p lane h) s = .next (refresh v)) ∧
    (p ≠ 2 → (s.link.ports[p]).up = false → v.portLocked p lane = true → (s.link.ports[p]).los = false →
      (s.link.ports[p]).prbs = none → Completes (.portUp p lane h) s fun t =>
        t.link.ports[p] = { v.link.ports[p] with
          up := true, lanes := .replicate 2 true, broken := false, loopback := none, stale := 0, quietRun := 0 } ∧
        t.link.originE = (if (s.link.ports[p]).broken = true ∧ p = 1 then .held else s.link.originE) ∧
        t.link.originW = (if (s.link.ports[p]).broken = true ∧ p = 0 then .held else s.link.originW) ∧
        (∀ k : RidgeId, k ≠ p → t.link.ports[k] = s.link.ports[k]) ∧ Outside [.link, .events] s t) ∧
    (v.portLocked p lane = false ∨ (s.link.ports[p]).los = true ∨ (s.link.ports[p]).prbs ≠ none →
      exec (.portUp p lane h) s = .next (refresh v)) ∧
    (p ≠ 2 → (s.link.ports[p]).up = false → s.member = true → Completes (.ringBreak p) s fun t =>
      t.link.ports[p] = { s.link.ports[p] with broken := true } ∧
      (p = 1 → t.link.originE = .held ∧ t.link.originW = s.link.originW ∧ t.link.sent[0].frame = s.clk.frame ∧
        t.link.sent[0].orig = true) ∧
      (p = 0 → t.link.originW = .held ∧ t.link.originE = s.link.originE ∧ t.link.sent[1].frame = s.clk.frame ∧
        t.link.sent[1].orig = true) ∧
      (∀ k : RidgeId, k ≠ p → t.link.ports[k] = s.link.ports[k]) ∧ Outside [.link] s t) ∧
    (s.clk.actSrc = some .ridge → s.clk.hold = false → s.clk.realign = .none → Completes .rejoin s fun t =>
      t.link = { s.link with joined := true, left := false } ∧ Outside [.link] s t) ∧
    (∀ j x y, s.clk.realign = .fadeOut j x y ∨ s.clk.realign = .longTick x → exec .rejoin s = .next (refresh s)) ∧
    ((s.link.ports[p]).losGpio ≠ none → Completes (.moduleLossOfSignal p true) s fun t =>
      (t.link.ports[p]).los = true ∧ (p ≠ 2 → (t.link.ports[p]).up = false) ∧
      (p = 2 → (t.link.ports[p]).lanes[0] = false ∧ (t.link.ports[p]).lanes[1] = false) ∧
      (∀ k : RidgeId, k ≠ p → t.link.ports[k] = s.link.ports[k]) ∧ (p = 2 ∨ KeepsRidge p s → t.clk = s.clk) ∧
      Outside [.link, .clk, .events, .resp] s t) ∧
    ((s.link.ports[p]).losGpio ≠ none → Completes (.moduleLossOfSignal p false) s fun t =>
      t.link.ports[p] = { s.link.ports[p] with los := false } ∧
      (∀ k : RidgeId, k ≠ p → t.link.ports[k] = s.link.ports[k]) ∧ Outside [.link] s t) ∧
    (p ≠ 2 → (s.link.ports[p]).up = false → exec (.prbsDetect p lane) s =
      .next (s.modRPort p fun x => { x with loopback := some lane })) ∧
    (∀ devs segid at' anew, let form := Instr.segmentFormation devs segid at' anew
      (∀ k, formConflict s.coreHz devs = some k → s.managerRole = true → s.evOn 0x8804 = true → s.evRoom = true →
        Completes form s fun t => t.fw.q[2] = s.fw.q[2] ++ [mkEvent s 0x8804 [wordN k]] ∧ Outside [.events] s t) ∧
      (∀ d, formConflict s.coreHz devs = none → formManager devs = some d → Completes form s fun t =>
        t.link.active = decide (s.boot.serial = d.serial) ∧
        t.link.segid = (if s.boot.serial ≠ d.serial then segid
          else if (s.link.ports[2]).lanes[1] && !(s.link.ports[2]).lanes[0] then 0
          else ((s.link.spurSeg.map fun k => k + 1).getD segid)) ∧
        (anew = false → ∀ x ∈ s.link.members, ∃ y ∈ t.link.members, y.pos = x.pos ∧ y.serial = x.serial) ∧
        (∃ x ∈ t.link.members, x.serial = d.serial ∧ (anew = true → x.pos = 0)) ∧ t.link.grants = s.link.grants ∧
        (s.boot.serial = d.serial → (t.link.originE = .held ∨ t.link.left = true) ∧ t.clk.actSrc ≠ some .ridge) ∧
        (anew = true → ∀ (i : Fin 128) x, t.link.taps[i] = some x → x.west = true) ∧
        (∃ n : Int, t.fw.sched = s.fw.sched ++ [{ due := .frame at' none, change := .counter n }] ∧ 0 ≤ n ∧
          ∀ x ∈ devs, (x.counter.toNat : Int) ≤ s.clk.sysCnt.toNat + n) ∧
        (KeepsRidge 2 s → (s.boot.serial = d.serial → s.clk.actSrc ≠ some .ridge) → t.clk = s.clk ∧ (anew = false → t.link.taps = s.link.taps)) ∧
        Outside [.link, .clk, .events, .fw, .resp] s t)) ∧
    (s.link.standby = true → s.link.active = false → s.mgrFailed = true → Completes .failover s fun t =>
      t.link.active = true ∧ t.link.standby = false ∧ t.link.epoch = s.link.epoch + 1 ∧ t.link.tdist = 0 ∧
      t.link.mgrPos = s.originPos ∧ t.link.stbyPos = s.link.mgrPos ∧ t.link.tx = s.link.tx ∧ t.mtx = s.mtx ∧ t.eng = s.eng ∧
      (s.clk.actSrc ≠ some .ridge → t.clk = { s.clk with qual := s.clk.qual.filter fun x => x ≠ .ridge }) ∧
      (s.clk.actSrc = some .ridge → t.clk.actSrc ≠ some .ridge ∧ t.clk.hold = true) ∧ Outside [.link, .clk, .events, .resp] s t) ∧
    (s.mgrFailed = false → exec .failover s = .next (refresh s)) ∧
    (s.limitDue = true → s.clk.lostSrc = some .ridge → Completes .holdoverLimit s fun t =>
      t.link.left = true ∧ t.link.joined = false ∧ t.link.originE = .no ∧ t.link.originW = .no ∧
      (∀ (i : Fin 128) x, s.link.taps[i] = some x → ∃ y, t.link.taps[i] = some y ∧ y.fade.goal = 0) ∧
      t.clk = { s.clk with limitHit := true } ∧ Outside [.link, .clk, .events] s t) ∧
    (s.limitDue = false ∨ s.clk.lostSrc = some .refclk → exec .holdoverLimit s = .next (refresh s))

/-- RIDGE_FRAME, read from the blocks on its lanes: what the scrambler and the slots of a frame carry comes back as it was sent. A
frame with an error on a port that is up counts in the port's counter and its control slots and audio are not used; a valid frame
brings each tap its copy, the members their beacons and the manager's position; a frame of another origin is forwarded with the
device's own channels, its PASSED bit and a new CRC, one of the device's own is not, nor one whose number it has originated (of two
origins the lower stays: log 92); a tunnelled message for the device lands in its
inbound mailbox once and is acknowledged. TWIN_COMPENSATION and ROUTE_RESTORE do what R335 and R342 say (R314, R315, R318, R320 to
R322, R333, R335, R336, R342). -/
def Obligations.LinkFrames : Prop :=
  (∀ prev d : Quad, unscramble prev (scramble prev d) = d) ∧
  (∀ (first : Bool) (prev : Quad) (l : List Quad), payloads prev (lineBlocks first prev l) = l.map fun d => (true, d)) ∧
  ∀ (s : State) (r : RxLink), s.standalone = false →
    let f := RxLink.frame r
    let v := hear r.port r.lane (vmap (fun l => l.map (·.1)) r.blocks) s
    (s.portLocked r.port r.lane = true → v.portLocked r.port r.lane = true) →
    (f.port ≠ 2 → (s.link.ports[f.port]).up = true → f.ok = false → s.member = false → Completes (.ridgeFrame r) s fun t =>
      t.link.errEast = (if f.port = 0 then satInc s.link.errEast else s.link.errEast) ∧
      t.link.errWest = (if f.port = 1 then satInc s.link.errWest else s.link.errWest) ∧
      t.link.ports[f.port] = { v.link.ports[f.port] with stale := min 8 ((s.link.ports[f.port]).stale + 1), quietRun := 0 } ∧
      (∀ k : RidgeId, k ≠ f.port → t.link.ports[k] = s.link.ports[k]) ∧
      { t.link with errEast := s.link.errEast, errWest := s.link.errWest, ports := s.link.ports } = s.link ∧
      Outside [.link, .events] s t) ∧
    (f.port ≠ 2 → (s.link.ports[f.port]).up = true → f.ok = true → f.admission.valid = false → f.tdist ≠ 255 →
      s.link.active = false → Completes (.ridgeFrame r) s fun t =>
        (t.link.ports[f.port]).number = f.number ∧ (t.link.ports[f.port]).tdist = f.tdist ∧
        (t.link.ports[f.port]).passed = f.passed ∧
        (f.mgrHere = true → t.link.mgrPos = f.mgrPos ∧ t.link.stbyPos = f.stbyPos ∧ t.link.epoch = f.epoch) ∧
        t.link.errEast = s.link.errEast ∧ t.link.errWest = s.link.errWest ∧
        (∀ i : Fin 128, s.link.left = false → t.link.taps[i] = s.link.taps[i].map (tapFrame f)) ∧
        (s.link.left = true → t.link.taps = s.link.taps) ∧
        t.link.members.map (fun x => (x.pos, x.serial, x.beacon)) =
          s.link.members.map (fun x => (x.pos, x.serial, f.cairn x.pos)) ∧
        (s.member = true → f.port = 1 → f.origin.val ≠ s.originPos → s.sentOwn 0 f.number = false →
          (s.link.ports[0]).broken = false → t.link.originE = .no ∧ t.link.sent[0].frame = f.number ∧
          t.link.sent[0].orig = false ∧ t.link.sent[0].audio = withOwn (s.owned 0) f.audio ∧
          t.link.sent[0].slot 127 = ctlCrc t.link.sent[0].ctl ∧
          (∀ q : Fin 32, s.link.pos = some q → bit (t.link.sent[0].slot 124) q.val = true ∧
            ∀ k : Fin 32, k ≠ q → bit (t.link.sent[0].slot 124) k.val = bit f.passed k.val)) ∧
        (s.member = true → f.port = 1 → f.origin.val = s.originPos → t.link.originE = .due ∧ t.link.sent[0] = s.link.sent[0]) ∧
        (s.member = true → f.port = 1 → f.origin.val ≠ s.originPos → s.sentOwn 0 f.number = true → t.link.sent[0] = s.link.sent[0] ∧
          t.link.originE = if s.originPos < f.origin.val then .due else .no) ∧
        (s.member = true → f.port = 0 → f.origin.val ≠ s.originPos → s.sentOwn 1 f.number = false →
          (s.link.ports[1]).broken = false → t.link.originW = .no ∧ t.link.sent[1].frame = f.number ∧
          t.link.sent[1].orig = false ∧ t.link.sent[1].audio = withOwn (s.owned 0) f.audio) ∧
        (f.tdn.valid = true → s.link.pos = some f.tdn.dest → s.link.tunnelAck = none → (s.host.mbi[f.tdn.mbox]).go = false →
          8 ≤ f.tdn.len.toNat → f.tdn.len.toNat ≤ 16 →
          t.host.mbi[f.tdn.mbox] = { s.host.mbi[f.tdn.mbox] with w := f.tdn.w, len := f.tdn.len, go := true,
                                                                     placed := some s.clk.now } ∧
          t.link.tunnelAck = some (f.tdn.tseq, 0)) ∧
        (∀ q : BitVec 2, s.link.tunnelAck = some (f.tdn.tseq, q) → q ≠ 1 → t.host.mbi = s.host.mbi) ∧
        Outside [.link, .clk, .events, .fw, .mbi, .mbo] s t) ∧
    (∀ mask : BitVec 16, s.partnerSays false = true → s.sup.restarting = false → Completes (.twinCompensation false mask) s fun t =>
      t.link = { s.link with comp := s.link.comp &&& ~~~(mask &&& s.pairedMask) } ∧ Outside [.link, .mtx, .events, .fw] s t) ∧
    (s.sup.restarting = false → s.fw.twinOn = true → s.partnerSays true = true → ∀ c : ChanId, s.raisable c = true → s.pairedMask.getLsbD c.val = true →
      Completes (.twinCompensation true (BitVec.ofNat 16 (2 ^ c.val))) s
        fun t => t.link = { s.link with comp := s.link.comp ||| BitVec.ofNat 16 (2 ^ c.val) } ∧
          Outside [.link, .mtx, .events, .fw] s t) ∧
    (∀ quiet mask, s.partnerSays quiet = false ∨ s.sup.restarting = true → exec (.twinCompensation quiet mask) s = .next (refresh s)) ∧
    (∀ (q : Route) (id : BitVec 12), s.summit = true → (s.link.routes.find? fun x => decide (x.id = id.toNat)) = some q →
      q.broken = true → Completes (.routeRestore id q.lat) s fun t =>
        t.link.routes = s.link.routes.map (fun x => if x.id = id.toNat then { x with broken := false } else x) ∧
        Outside [.link, .events] s t)

/-! ### 14 to 17: firmware images, security, events, policies, the peripheral port -/

/-- FW_INFO and SEC_STATUS report; FW_UPDATE marks the slot it wrote as a trial and needs that none runs; FW_CONFIRM ends a trial;
FW_REBOOT resets the device; SEC_REVOKE sets a REVOKE bit but that of the running image's key; SEC_CRED seals a credential where
a copy may be written (R395, R403, R405, R407, R408, R410, R417, R420, Table 14.8). -/
def Obligations.FirmwareSecurity : Prop :=
  ∀ (s : State) (h : Fin 8) (l : List Byte), Serving s →
    (∀ x, s.boot.running = some (.slot x) → Answers .fwInfo 0x0A01 8 2 s (fun _ => True)
      (fun _ => [(slotCode x).zeroExtend 32, s.boot.image.svn.zeroExtend 32, s.boot.image.seq, (s.slotState x).zeroExtend 32,
        (s.slotState (otherSlot x)).zeroExtend 32]) (fun _ t => Outside [.resp] s t)) ∧
    (s.boot.running = some .host ∨ s.boot.running = some .link → ∀ m, Request 0x0A01 8 2 m s → Completes (.fwInfo m) s fun t =>
      ∃ w : Word, t.fw.q[0] = s.fw.q[0] ++ [answer m 0 0 [w, s.boot.image.svn.zeroExtend 32, s.boot.image.seq,
        (s.slotState .a).zeroExtend 32, (s.slotState .b).zeroExtend 32]] ∧ Outside [.resp] s t) ∧
    (∀ u, s.object (h.val + 1) .image = some l → s.trying = false →
      s.imageCheck (s.readSlot s.targetSlot) (min s.dir.slotSize (s.objSize (h.val + 1))) = 0 →
      writeDir (s.dir.written s.targetSlot 2 (imgInfo (s.readSlot s.targetSlot)).seq) s = some u →
      Answers .fwUpdate 0x0A02 8 4 s (fun m => mword m 2 = wordN (h.val + 1) ∧ mword m 3 = 0)
        (fun _ => [(slotCode s.targetSlot).zeroExtend 32])
        (fun _ t => t.boot = u.boot ∧ (∀ i : Fin 2, s.dirIndex = some i → t.boot.dir[i] = s.boot.dir[i]) ∧
          Outside [.resp, .boot, .peri] s t)) ∧
    (s.object (h.val + 1) .image = some l → s.trying = true → ∀ m, Request 0x0A02 8 4 m s → mword m 2 = wordN (h.val + 1) →
      mword m 3 = 0 → Completes (.fwUpdate m) s fun t =>
        t.fw.q[0] = s.fw.q[0] ++ [answer m 0x20 0 []] ∧ Outside [.resp] s t) ∧
    (∀ x u, s.boot.trial = true → s.boot.running = some (.slot x) → writeDir (s.confirmedDir x) s = some u →
      Answers .fwConfirm 0x0A03 8 2 s (fun _ => True) (fun _ => []) (fun _ t =>
        t.boot = { u.boot with trial := false, trialWd := none } ∧ Outside [.resp, .boot, .peri] s t)) ∧
    (s.boot.trial = false → ∀ m, Request 0x0A03 8 2 m s → Completes (.fwConfirm m) s fun t =>
      t.fw.q[0] = s.fw.q[0] ++ [answer m 0x20 0 []] ∧ Outside [.resp] s t) ∧
    (∀ m, Request 0x0A04 8 2 m s → Completes (.fwReboot m) s fun t =>
      t.boot.phase = .held ∧ t.sup.resetCause < 6 ∧ t.sup.stat = 1 ∧ t.fw = .reset ∧ t.clk = .reset ∧ t.mtx = .reset ∧
      t.boot.slotA = s.boot.slotA ∧ t.boot.slotB = s.boot.slotB ∧ t.boot.dir = s.boot.dir ∧ t.boot.sealed = s.boot.sealed ∧
      t.boot.revoke = s.boot.revoke ∧ t.pending = s.pending) ∧
    Answers .secStatus 0x0B01 8 2 s (fun _ => True) (fun _ =>
      [maskOf ((idx 4).filter fun i => s.boot.kh[i].isSome) ||| (s.boot.revoke.zeroExtend 32 <<< 4),
        if s.boot.debugDisable then 1 else 0,
        (if s.boot.khLock then 1 else 0) + (if s.boot.orderLock then 2 else 0) + (if s.boot.testLock then 4 else 0),
        s.boot.image.svn.zeroExtend 32, if s.boot.keyRead then 0 else 1]) (fun _ t => Outside [.resp] s t) ∧
    (∀ i : Fin 4, s.signedBy i = false → Answers .secRevoke 0x0B02 8 4 s
      (fun m => mword m 2 = wordN i.val ∧ mword m 3 = 0x52564B31) (fun _ => []) (fun _ t =>
        t.boot = { s.boot with revoke := s.boot.revoke ||| BitVec.ofNat 4 (2 ^ i.val) } ∧ Outside [.resp, .boot] s t)) ∧
    (∀ i : Fin 4, s.signedBy i = true → ∀ m, Request 0x0B02 8 4 m s → mword m 2 = wordN i.val → mword m 3 = 0x52564B31 →
      Completes (.secRevoke m) s fun t => t.fw.q[0] = s.fw.q[0] ++ [answer m 0x20 0 []] ∧ Outside [.resp] s t) ∧
    (∀ i : Fin 2, s.object (h.val + 1) .cred = some l → s.boot.keyRead = true →
      s.writeTo = some i → s.hasCopy i = true →
      Answers .secCred 0x0B03 8 3 s (fun m => mword m 2 = wordN (h.val + 1)) (fun _ => []) (fun _ t =>
        t.boot.cred = Config.credOf l ∧ (∃ r, t.boot.sealed[i] = some r ∧ r.magic = 0x4C414553 ∧ r.data.cred = Config.credOf l ∧
          r.cseq = s.nextCseq ∧ r.ksvn = s.boot.image.svn ∧ r.tag = r.tagUnder s.boot.serial s.boot.key ∧
          ∀ f, s.boot.flash = some f → t.peri.sent = Sfdp.write f false (copyOff i) (r.bytes s.boot.key)) ∧
        (∀ j : Fin 2, j ≠ i → t.boot.sealed[j] = s.boot.sealed[j]) ∧ Outside [.resp, .boot, .peri] s t)) ∧
    (s.object (h.val + 1) .cred = some l → s.boot.keyRead = false → ∀ m, Request 0x0B03 8 3 m s → mword m 2 = wordN (h.val + 1) →
      Completes (.secCred m) s fun t => t.fw.q[0] = s.fw.q[0] ++ [answer m 0x20 0 []] ∧ Outside [.resp] s t)

/-- EVT_ENABLE enables or disables one event, or all, but never the four of R387; EVT_COUNT and EVT_CLEAR read and clear the loss
counters. The POL commands set their zone or policy; a noise reading, a gain step of 0.1 dB at most, and the stale source follow
R388 and R389. -/
def Obligations.Policies : Prop :=
  ∀ (s : State) (z : ZoneId),
    (Serving s →
      (∀ c, isEvent c = true → ∀ on : Bool, Answers .evtEnable 0x0D01 8 4 s
        (fun m => mword m 2 = wordN c ∧ mword m 3 = if on then 1 else 0) (fun _ => []) (fun _ t =>
          t.evOn c = (on || evAlways c) ∧ (∀ d, d ≠ c → t.evOn d = s.evOn d) ∧
          { t.fw with evExc := s.fw.evExc, q := s.fw.q } = s.fw ∧ Outside [.resp, .fw] s t)) ∧
      (∀ on : Bool, Answers .evtEnable 0x0D01 8 4 s (fun m => mword m 2 = 0xFFFF ∧ mword m 3 = if on then 1 else 0)
        (fun _ => []) (fun _ t => (∀ d, t.evOn d = (on || evAlways d)) ∧ Outside [.resp, .fw] s t)) ∧
      Answers .evtCount 0x0D02 8 2 s (fun _ => True) (fun _ => [s.fw.loss, s.fw.drop0, s.fw.drop3])
        (fun _ t => Outside [.resp] s t) ∧
      Answers .evtClear 0x0D03 8 2 s (fun _ => True) (fun _ => []) (fun _ t =>
        { t.fw with q := s.fw.q } = { s.fw with loss := 0, drop0 := 0, drop3 := 0 } ∧ Outside [.resp, .events, .fw] s t) ∧
      (∀ (mask : BitVec 16) (g : GrpId) (c : Fin 12), mask ≠ 0 → s.zoneClash z mask = false →
        Answers .polZone 0x0E01 8 5 s (fun m => mword m 2 = wordN (z.val + 256) ∧ mword m 3 = mask.zeroExtend 32 ∧
          mword m 4 = wordN (g.val + 256 * c.val)) (fun _ => []) (fun _ t =>
          t.fw.zone[z].on = true ∧ t.fw.zone[z].chans = mask ∧ t.fw.zone[z].grp = g ∧ t.fw.zone[z].chan = c ∧
          (∀ k : ZoneId, k ≠ z → t.fw.zone[k] = s.fw.zone[k]) ∧ Outside [.resp, .events, .fw, .mtx] s t)) ∧
      (∀ (mask : BitVec 16), mask ≠ 0 → s.zoneClash z mask = true → ∀ m, Request 0x0E01 8 5 m s →
        mword m 2 = wordN (z.val + 256) → mword m 3 = mask.zeroExtend 32 → mword m 4 = 0 → Completes (.polZone m) s fun t =>
          t.fw.q[0] = s.fw.q[0] ++ [answer m 0x26 0 []] ∧ Outside [.resp] s t) ∧
      Answers .polNoise 0x0E02 8 7 s (fun m => mword m 2 = wordN z.val ∧ (mword m 3).toNat ≤ 120 ∧ -800 ≤ (mword m 4).toInt ∧
          (mword m 4).toInt ≤ 0 ∧ 25 ≤ (mword m 5).toNat ∧ (mword m 5).toNat ≤ 100 ∧ (mword m 6).toNat ≤ 1) (fun _ => [])
        (fun m t => t.fw.zone[z] = { s.fw.zone[z] with
            gmax := (mword m 3).toNat, nref := (mword m 4).toInt, slope := (mword m 5).toNat, noiseOn := decide (mword m 6 = 1) } ∧
          (∀ k : ZoneId, k ≠ z → t.fw.zone[k] = s.fw.zone[k]) ∧ Outside [.resp, .fw] s t) ∧
      Answers .polTherm 0x0E03 8 4 s (fun m => mword m 2 = wordN z.val ∧ (mword m 3).toNat ≤ 1) (fun _ => []) (fun m t =>
        t.fw.zone[z] = { s.fw.zone[z] with fold := decide (mword m 3 = 1) } ∧
        (∀ k : ZoneId, k ≠ z → t.fw.zone[k] = s.fw.zone[k]) ∧ Outside [.resp, .fw] s t) ∧
      Answers .polTwin 0x0E04 8 4 s (fun m => (mword m 2).toNat ≤ 1 ∧ (mword m 3).toNat ≤ 6) (fun _ => []) (fun m t =>
        { t.fw with q := s.fw.q, loss := s.fw.loss, lostHeld := s.fw.lostHeld, clamped := s.fw.clamped } =
          { s.fw with twinOn := decide (mword m 2 = 1), raise := (mword m 3).toNat } ∧ Outside [.resp, .events, .fw, .mtx] s t) ∧
      Answers .polMigr 0x0E05 8 4 s (fun m => (mword m 2).toNat ≤ 1 ∧ (mword m 3).toNat ≤ 168) (fun _ => []) (fun m t =>
        { t.fw with q := s.fw.q } = { s.fw with restartOn := decide (mword m 2 = 1), migrHours := (mword m 3).toNat } ∧
        Outside [.resp, .fw] s t) ∧
      Answers .polKeepalive 0x0E06 8 4 s (fun m => 10 ≤ (mword m 2).toNat ∧ (mword m 2).toNat ≤ 10000 ∧ (mword m 3).toNat ≤ 1)
        (fun _ => []) (fun m t =>
        { t.fw with q := s.fw.q } = { s.fw with kaInt := (mword m 2).toNat, kaQuiet := decide (mword m 3 = 1) } ∧
        Outside [.resp, .fw] s t) ∧
      (∀ n, s.fw.zone[z].level = some n → Answers .polStatus 0x0E07 8 3 s (fun m => mword m 2 = wordN z.val) (fun _ =>
        [wordI n, wordN s.fw.zone[z].target, wordN s.fw.zone[z].gain,
          wordN (s.fw.zone[z].ks.foldl (fun r c => max r (s.twinRaise c)) 0), if s.zoneFolds z then 1 else 0])
        (fun _ t => Outside [.resp] s t))) ∧
    (s.noiseReads z = false → exec (.noiseReading z) s = .next (refresh s)) ∧
    (s.noiseReads z = true → Completes (.noiseReading z) s fun t =>
      t.fw.zone[z].reads = (s.noiseValue z :: s.fw.zone[z].reads).take 100 ∧
      t.fw.zone[z].stale = (s.fw.zone[z].stale && (!s.fw.zone[z].noiseOn || decide (s.noiseValue z = 0))) ∧ t.fw.zone[z].gain = s.fw.zone[z].gain ∧
      (∀ k : ZoneId, k ≠ z → t.fw.zone[k] = s.fw.zone[k]) ∧ Outside [.events, .fw] s t) ∧
    (s.fw.zone[z].on = true → s.fw.started = true → s.sup.restarting = false → s.boot.phase = .firmware →
      Completes (.noiseGainStep z) s fun t =>
        t.fw.zone[z] = { s.fw.zone[z] with gain := s.nextGain z } ∧ t.fw.zone[z].gain ≤ s.fw.zone[z].gain + 1 ∧
        s.fw.zone[z].gain ≤ t.fw.zone[z].gain + 1 ∧
        (s.zoneFolds z = true → t.fw.zone[z].gain ≤ s.fw.zone[z].gain) ∧
        (∀ k : ZoneId, k ≠ z → t.fw.zone[k] = s.fw.zone[k]) ∧ Outside [.events, .fw, .mtx] s t) ∧
    (s.noiseRuns z = true → s.fw.zone[z].stale = false → s.noiseValue z = 0 → Completes (.noiseSourceStale z) s fun t =>
      t.fw.zone[z] = { s.fw.zone[z] with stale := true, falling := false } ∧
      (∀ k : ZoneId, k ≠ z → t.fw.zone[k] = s.fw.zone[k]) ∧ Outside [.events, .fw] s t) ∧
    (s.noiseRuns z = true → s.fw.zone[z].stale = true → Completes (.staleHoldExpiry z) s fun t =>
      t.fw.zone[z] = { s.fw.zone[z] with falling := true } ∧ (∀ k : ZoneId, k ≠ z → t.fw.zone[k] = s.fw.zone[k]) ∧
      Outside [.fw] s t)

/-- PERI_XFER queues one entry and is answered when the entry ends; select 0 is the firmware's own. QUEUE_ENTRY runs the entry: with CONT
the select stays down and its words are one run, which goes on where its select is held already; without it every word has its own run;
PRDY low pauses it before a word, whose first bit PDO then shows. The paused entry goes on, or is aborted at its timeout and the select
rises; a held run ends after 100 ms without an entry (R426, R427, R429, R430, R434, R435). -/
def Obligations.PeripheralPort : Prop :=
  ∀ (s : State) (e : PeriEntry) (l : List PeriEntry) (rx : List Word) (io : PeriIo),
    (Serving s → ∀ n w sel, 1 ≤ n → n ≤ 10 → 8 ≤ w → w ≤ 32 → 1 ≤ sel → sel < 4 →
      ∀ m, Request 0x0C01 (max 8 (5 + n)) (5 + n) m s → mword m 2 = wordN (sel + 4 * (w - 1) + 256 * n) →
        1 ≤ (mword m 3).toNat → (mword m 3).toNat ≤ 65535 → mword m 4 = 0 → Completes (.periXfer m) s fun t =>
          t.peri = { s.peri with queue := s.peri.queue ++ [{
            sel := fin 4 sel, width := w, cont := false, timeout := (mword m 3).toNat,
            data := (List.range n).map fun i => mword m (5 + i), reply := some m, byHandle := false }] } ∧
          t.fw.q[0] = s.fw.q[0] ∧ t.fw.line = [{ key := keyOf m, pos := none, msg := none }] ∧ Outside [.resp, .peri] s t) ∧
    (Serving s → ∀ m, Request 0x0C01 8 6 m s → mword m 2 = wordN (4 * 7 + 256) → mword m 3 = 1 → mword m 4 = 0 →
      Completes (.periXfer m) s fun t => t.fw.q[0] = s.fw.q[0] ++ [answer m 0x20 0 []] ∧ Outside [.resp] s t) ∧
    (s.peri.queue = e :: l → s.peri.paused = none → s.peri.held = none → io.pauseAt = none → e.reply = none → e.data ≠ [] →
      Completes (.queueEntry io) s fun t =>
        t.peri.queue = l ∧ t.peri.paused = none ∧ t.peri.held = (if e.cont then some e.sel else none) ∧
        t.peri.sent = (if e.cont then [{ sel := e.sel, words := e.data.map fun w => (e.width, periWord e w), reads := 0 }]
          else e.data.map fun w => { sel := e.sel, words := [(e.width, periWord e w)], reads := 0 }) ∧
        t.peri.result = (List.range e.data.length).map (PeriIo.word io e) ∧ Outside [.peri] s t) ∧
    (∀ r, s.peri.queue = e :: l → s.peri.paused = none → s.peri.held = some e.sel → s.peri.sent.getLast? = some r → io.pauseAt = none →
      e.reply = none → e.cont = true → Completes (.queueEntry io) s fun t =>
        t.peri.queue = l ∧ t.peri.paused = none ∧ t.peri.held = some e.sel ∧
        t.peri.sent = [{ r with words := r.words ++ e.data.map fun w => (e.width, periWord e w) }] ∧ Outside [.peri] s t) ∧
    (∀ m, s.peri.queue = e :: l → s.peri.paused = none → s.peri.held = none → io.pauseAt = none → e.reply = some m → m.box = 0 →
      e.byHandle = false → e.cont = false → e.data ≠ [] → s.peri.broken = false →
      s.fw.line = [{ key := keyOf m, pos := none, msg := none }] →
      (s.link.active = false ∨ s.link.paired = false) → Completes (.queueEntry io) s fun t =>
        t.fw.q[0] = s.fw.q[0] ++ [answer m 0 0 (wordN e.data.length :: (List.range e.data.length).map (PeriIo.word io e))] ∧
        t.fw.line = [] ∧ t.peri.queue = l ∧ t.peri.held = none ∧ Outside [.peri, .resp] s t) ∧
    (∀ i, s.peri.queue = e :: l → s.peri.paused = none → io.pauseAt = some i → i < e.data.length → e.sel ≠ 0 →
      Completes (.queueEntry io) s fun t =>
        t.peri.paused = some (e, (List.range i).map (PeriIo.word io e)) ∧ t.peri.queue = l ∧
        t.peri.pdo = some (bit (e.data.getD i 0) (e.width - 1)) ∧ Outside [.peri] s t) ∧
    (s.peri.paused = some (e, rx) → io.pauseAt = none → e.reply = none → Completes (.prdySampledHigh io) s fun t =>
      t.peri.paused = none ∧ t.peri.queue = s.peri.queue ∧
      t.peri.result = rx ++ (List.range (e.data.length - rx.length)).map (PeriIo.word io e) ∧ Outside [.peri] s t) ∧
    (∀ m, s.peri.paused = some (e, rx) → e.reply = some m → m.box = 0 → e.byHandle = false → s.peri.broken = false →
      s.fw.line = [{ key := keyOf m, pos := none, msg := none }] →
      rx.length ≤ e.data.length → (s.link.active = false ∨ s.link.paired = false) → Completes .prdyTimeout s fun t =>
        t.peri.paused = none ∧ t.peri.held = none ∧
        t.fw.q[0] = s.fw.q[0] ++ [answer m 0 0 (wordN (rx.length + 65536) :: rx ++
          List.replicate (e.data.length - rx.length) 0)] ∧ t.fw.line = [] ∧ Outside [.peri, .resp] s t) ∧
    (s.peri.queue = [] → s.peri.paused = none → Completes .heldRunExpiry s fun t =>
      t.peri.held = none ∧ t.peri.queue = [] ∧ t.peri.sent = s.peri.sent ∧ Outside [.peri] s t)

/-! ### 15, 17, 18: boot, resets, watchdogs, debug -/

/-- Resets and boot. RESET_N low for 10 µs, a low supply and the trial watchdog leave the reset values with their cause, and only
fuses, flash and the retained record; a pulse under 1 µs does nothing. The end of internal reset samples the straps and starts
the ROM, which halts with its code or waits on a source; a wait that expires goes to the next source; the handover starts the
firmware (R396 to R398, R407, R411, R412, R415, R453, R455, Tables 15.2, 15.3, 15.10). -/
def Obligations.BootRows : Prop :=
  ∀ s : State,
    let resets := fun (c : Instr) (cause : Nat) => Completes c s fun t =>
      t.boot.phase = .held ∧ t.sup.resetCause = cause ∧ t.sup.stat = 1 ∧ t.sup.quiet = 1 ∧ t.clk = .reset ∧
      t.host = .reset ∧ t.fw = .reset ∧ t.eng = .replicate 20 .reset ∧ t.mtx = .reset ∧ t.pcd = .reset ∧ t.link = .reset ∧
      t.boot.kh = s.boot.kh ∧ t.boot.revoke = s.boot.revoke ∧ t.boot.slotA = s.boot.slotA ∧ t.boot.slotB = s.boot.slotB ∧
      t.boot.dir = s.boot.dir ∧ t.boot.sealed = s.boot.sealed ∧ t.boot.warm = s.boot.warm ∧ t.boot.fuseLock = false ∧
      t.pending = s.pending
    (∀ ns, 10000 ≤ ns → resets (.resetN ns) 1) ∧ (∀ ns, ns < 1000 → exec (.resetN ns) s = .next (refresh s)) ∧
    resets .supplyLow 0 ∧ (s.boot.trialWd ≠ none → resets .trialWatchdogExpiry 5) ∧
    (s.boot.trialWd = none → exec .trialWatchdogExpiry s = .next (refresh s)) ∧
    (∀ (pins : Straps) (env : RomEnv), s.boot.phase = .held → s.sup.restarting = false → bit s.boot.bootOrder 3 = false →
      (pins.testmode = true → Completes (.internalResetEnd pins env) s fun t =>
        t.boot.phase = .boundaryScan ∧ t.boot.straps = pins ∧ t.sup.stat = 0xE) ∧
      (pins.testmode = false → env.selfTest = false → Completes (.internalResetEnd pins env) s fun t =>
        t.boot.phase = .halted 7 ∧ t.host.ready = false ∧ t.sup.stat = 7) ∧
      (pins.testmode = false → env.selfTest = true → env.fusesOk = false → Completes (.internalResetEnd pins env) s fun t =>
        t.boot.phase = .halted 9 ∧ t.host.ready = false ∧ t.sup.stat = 9) ∧
      (pins.testmode = false → env.selfTest = true → env.fusesOk = true →
        (pins.bootsel = 7 → Completes (.internalResetEnd pins env) s fun t => t.boot.phase = .halted 3 ∧ t.sup.stat = 3) ∧
        (pins.bootsel = 6 → s.boot.testLock = false → Completes (.internalResetEnd pins env) s fun t =>
          t.boot.phase = .vendorTest ∧ t.sup.stat = 0xF) ∧
        (pins.bootsel = 3 → env.sysLocks = false → Completes (.internalResetEnd pins env) s fun t =>
          t.boot.phase = .halted 8 ∧ t.sup.stat = 8) ∧
        (pins.bootsel = 3 → env.sysLocks = true → env.src = .refclk → Completes (.internalResetEnd pins env) s fun t =>
          t.boot.phase = .rom ∧ t.boot.order = [.h] ∧ t.host.ready = true ∧ t.sup.stat = 1 ∧ t.boot.straps = pins ∧
          t.clk.sysLock = true ∧ t.clk.tickRun = true ∧ t.clk.fallback = false ∧ t.clk.actSrc = some .refclk ∧
          t.clk.mrate = baseRate env.family))) ∧
    (∀ x, s.boot.phase = .rom → s.boot.order = [x, .h] → Completes .bootSourceWaitExpiry s fun t =>
      t.boot.phase = .rom ∧ t.boot.order = [.h] ∧ t.host.ready = true ∧ Outside [.boot, .hostRegs] s t) ∧
    (∀ x, s.boot.order = [x] → exec .bootSourceWaitExpiry s = .next (refresh s)) ∧
    (s.boot.phase = .verified → s.fw.q[2] = [] → s.fw.lostHeld = false → Completes .handover s fun t =>
      t.boot.phase = .firmware ∧ t.boot.debugLock = true ∧ t.boot.fuseLock = true ∧ t.host.ready = true ∧
      t.sup.capoHRun = true ∧ t.sup.capoSRun = true ∧ t.fw.started = s.fw.started ∧ t.fw.handle = .replicate 8 none ∧
      t.boot.keyClear = true ∧ t.boot.keyRead = (s.boot.svn.isSome && !s.boot.jtag && !s.boot.keyClear) ∧
      (∀ v, s.boot.svn = some v → t.boot.keyRead = true → t.boot.key = deviceKey s.boot.serial v.toNat) ∧
      (t.boot.keyRead = false → t.boot.key = 0) ∧
      (∃ l, t.fw.q[2] = mkEvent s 0x8101 [wordN s.sup.resetCause] :: l) ∧
      (s.clk.actSrc ≠ some .ridge ∨ s.managerRole = false → t.fw.q[2] = [mkEvent s 0x8101 [wordN s.sup.resetCause]] ∧
        t.fw.sched = s.fw.sched ++ (idx 20).map fun e => { due := .next, change := .engTest e })) ∧
    (s.boot.phase = .firmware → s.sup.restarting = true → s.warmMatch = true → s.fw.started = true → Completes .handover s fun t =>
      t.sup.restarting = false ∧ t.sup.capoHRun = true ∧ t.sup.resetCause = 2 ∧
      t.fw.q[2] = mkEvent s 0x8101 [2] :: s.fw.q[2] ∧ t.fw.reading = s.clk.tickRun ∧
      (∀ g : GrpId, ∀ r, s.grp[g].waiting = some r → r.down = true → t.grp[g] = { s.grp[g] with
        waiting := some { r with tick := s.clk.tick, down := false } }) ∧
      (∀ g : GrpId, (∀ r, s.grp[g].waiting = some r → r.down = false) → t.grp[g] = s.grp[g]) ∧
      t.boot.sramS = s.boot.sramH.2 ∧ t.boot.svn = s.boot.warmSvn ∧
      t.boot.keyRead = ((s.boot.debugDisable || s.boot.debugLock) && !s.boot.jtag) ∧
      { t.boot with entry := s.boot.entry, sramS := s.boot.sramS, svn := s.boot.svn, keyRead := s.boot.keyRead, key := s.boot.key,
                    keyClear := s.boot.keyClear } = s.boot ∧ Outside [.sup, .boot, .events, .fw, .grp] s t)

/-- SELF_CONFIRM ends a healthy trial; WAKE hands the retained image over when its record matches; the watchdogs reset Capo-H or set
their quiet cause, and a cause clears after its second; an open debug port costs the keys until the next reset; a fuse bit that is
programmed stays; the boundary-scan instruction is taken in its mode only (R395, R396, R408, R413, R414, R421, R422, R438, R440,
R446, Table 17.4). -/
def Obligations.Supervision : Prop :=
  ∀ s : State,
    (∀ u, s.selfHealthy = true → confirmTrial s = some u → Completes .selfConfirm s fun t =>
      t.boot.trial = false ∧ t.boot.trialWd = none ∧ t.boot = u.boot ∧ Outside [.boot, .peri] s t) ∧
    (s.selfHealthy = false → exec .selfConfirm s = .next (refresh s)) ∧
    (∀ pin, s.boot.phase = .sleeping → wakes s.boot.wakeMask pin = true → s.warmMatch = true → Completes (.wake pin) s fun t =>
      t.boot.phase = .verified ∧ t.sup.resetCause = 4 ∧ t.boot.svn = s.boot.warmSvn ∧ t.boot.imgBytes = s.boot.imgBytes ∧
      t.boot.sramS = s.boot.sramH.2 ∧ Outside [.boot, .sup, .clk] s t) ∧
    (∀ pin, s.boot.phase ≠ .sleeping ∨ wakes s.boot.wakeMask pin = false → exec (.wake pin) s = .next (refresh s)) ∧
    (s.boot.phase = .firmware → s.sup.restarting = false → Completes .capoHWatchdog s fun t =>
      t.sup.restarting = true ∧ t.sup.capoHRun = false ∧ t.sup.resetCause = 2 ∧ t.sup.quiet = s.sup.quiet ∧
      (∀ b : BoxId, t.host.mbi[b].aborted = true ∧ t.host.mbi[b].go = false) ∧ (∀ b : BoxId, t.fw.q[b] = []) ∧
      Outside [.mbi, .resp, .events, .fw, .sup, .peri] s t) ∧
    (s.boot.phase = .firmware → s.sup.capoSRun = true → s.sup.quiet ≠ 0 → Completes .capoSWatchdog s fun t =>
      t.sup.quiet = s.sup.quiet ||| 0x20 ∧ t.sup.capoSRun = s.sup.capoHRun ∧ (s.outsHeld = false → ∀ n : Fin 8, t.clk.out[n].running = false) ∧
      Outside (if s.outsHeld then [.sup] else [.sup, .clk, .events]) s t) ∧
    (s.boot.phase = .firmware → s.clk.fallback = false → Completes .tickWatchdog s fun t =>
      t.sup.quiet = s.sup.quiet ||| 0x40 ∧ (s.sup.quiet = 0 → t.pcd.quiet = true ∧ ∀ n : Fin 8, t.clk.out[n].running = false) ∧
      Outside [.sup, .clk, .events, .fw, .pcd] s t) ∧
    (s.clk.sysLock = true → s.clk.fallback = false → Completes (.quietCauseClearTimer 4) s fun t =>
      t.sup.quiet = s.sup.quiet &&& ~~~0x10#7 ∧ Outside [.sup, .events, .pcd] s t) ∧
    (s.sup.capoSRun = true → Completes (.quietCauseClearTimer 5) s fun t =>
      t.sup.quiet = s.sup.quiet &&& ~~~0x20#7 ∧ Outside [.sup, .events, .pcd] s t) ∧
    (s.clk.tickRun = true → Completes (.quietCauseClearTimer 6) s fun t =>
      t.sup.quiet = s.sup.quiet &&& ~~~0x40#7 ∧ Outside [.sup, .events, .pcd] s t) ∧
    (∀ i : Fin 7, i.val < 4 → exec (.quietCauseClearTimer i) s = .next (refresh s)) ∧
    (s.reachable = true → s.boot.debugDisable = false → s.boot.debugLock = false → Completes .jtagDebugAccess s fun t =>
      t.boot = { s.boot with jtag := true } ∧ Outside [.boot] s t) ∧
    (s.reachable = false ∨ s.boot.debugDisable = true ∨ s.boot.debugLock = true →
      exec .jtagDebugAccess s = .next (refresh s)) ∧
    (∀ op, s.reachable = true → s.boot.fuseLock = false → Completes (.fuseProgramming op) s fun t =>
      (∀ (i : Fin 4) h, s.boot.kh[i] = some h → t.boot.kh[i] = some h) ∧ s.boot.revoke &&& ~~~t.boot.revoke = 0 ∧
      s.boot.bootOrder &&& ~~~t.boot.bootOrder = 0 ∧ (s.boot.debugDisable = true → t.boot.debugDisable = true) ∧
      (s.boot.khLock = true → t.boot.khLock = true ∧ t.boot.kh = s.boot.kh) ∧
      (s.boot.orderLock = true → t.boot.orderLock = true ∧ t.boot.bootOrder = s.boot.bootOrder) ∧
      (s.boot.testLock = true → t.boot.testLock = true) ∧
      (∀ i h, op = .kh i h → s.boot.kh[i] = none → s.boot.khLock = false → t.boot.kh[i] = some h) ∧
      (∀ i, op = .revoke i → t.boot.revoke.getLsbD i.val = true) ∧ Outside [.boot] s t) ∧
    (∀ op, s.reachable = false ∨ s.boot.fuseLock = true → exec (.fuseProgramming op) s = .next (refresh s)) ∧
    (∀ i, s.boot.phase = .boundaryScan → Completes (.boundaryScanInstruction i) s fun t =>
      t.boot = { s.boot with jtagIr := i } ∧ Outside [.boot] s t) ∧
    (∀ i, s.boot.phase ≠ .boundaryScan → exec (.boundaryScanInstruction i) s = .next (refresh s))

/-! ### The machine -/

/-- The values that the specification gives for reset: STAT code 1 and quiet cause bit 0, READY 0, DEVSTAT 0x111, LINK_POS
0xFFFF with frame counter 0, counters, flags, mailboxes and queues at 0, MTX, power and port settings at the values of their
tables, every engine IDLE (Tables 06.2, 08.2, 09.6, 10.4, 11.6, 19.1); the queue of commands is empty and every memory is in
canonical form. -/
def Obligations.ResetState : Prop :=
  State.reset.sup.stat = 1 ∧ State.reset.sup.quiet = 1 ∧ State.reset.devstat = 0x111 ∧ State.reset.host.ready = false ∧
  State.reset.clk.tick = 0 ∧ State.reset.clk.sysCnt = 0 ∧ State.reset.clk.frame = 0 ∧ State.reset.clk.holdLim = 100 ∧
  State.reset.link.pos = none ∧
  (∀ b : BoxId, State.reset.host.mbi[b] = .reset ∧ State.reset.host.mbo[b] = .reset ∧ State.reset.fw.q[b] = []) ∧
  (∀ e : EngId, State.reset.eng[e].st = .idle) ∧ (∀ c : Fin 256, State.reset.mtx.cols[c].cur = 16384 ∧
    State.reset.mtx.cols[c].rc = 480) ∧
  (∀ c : ChanId, State.reset.pcd.ch[c].st = .off ∧ State.reset.pcd.ch[c].cfg.vfs = 200 ∧ State.reset.pcd.ch[c].cfg.ilim = 50) ∧
  (∀ p : PortId, State.reset.port[p].st = .off ∧ State.reset.port[p].cfg.stopq = 64) ∧ StatShown .reset ∧
  State.reset.pending = [] ∧ MemoriesSound .reset

/-- A step executes the command at the front of the queue on the state with the queue's rest; on an empty queue one core cycle
passes, in which the counters and the ages of the clock outputs alone count, and while no tick runs the way into deep sleep goes on (the
idle step is the model's choice, logs 1 and 48). -/
def Obligations.StepRunsFront : Prop :=
  (∀ (s : State) (c : Instr) (r : List Instr), step { s with pending := c :: r } = exec c { s with pending := r }) ∧
  (∀ s : State, s.pending = [] → step s = .next (idle s)) ∧
  (∀ s : State, s.pending = [] → s.clk.tickRun = true ∨ s.fw.sleep = none → s.counting = true → s.clk.syncPend = none →
    s.clk.sysHold = 0 → step s =
    .next { s with clk.sysCnt := s.clk.sysCnt + 1, clk.cyc := s.clk.cyc + 1, clk.now := s.clk.now + timeUnit s.clk.family, clk.out := vmap (ClkOut.pass 1) s.clk.out }) ∧
  (∀ s : State, s.pending = [] → s.clk.tickRun = true ∨ s.fw.sleep = none → s.counting = false → step s = .next s) ∧
  (∀ s : State, s.pending = [] → s.clk.tickRun = false → s.counting = false → step s = .next (sleepStep s))

/-- STAT[3:0] shows its code after every step that starts with it shown: whatever the command, the step answers a next state in
which STAT still does, or stops on an operand that no event of the hardware can carry; no step is refused. Once the firmware has
finished its start, the code shown is the one of Table 17.5 with the highest priority whose condition holds, also while Capo-H
restarts (R442). -/
def Obligations.StatKept : Prop :=
  ∀ s : State, StatShown s →
    ((∃ t, step s = .next t ∧ StatShown t) ∨ ∃ name, step s = .fault (.illFormed name)) ∧
    (s.fw.started = true → s.boot.phase = .firmware →
      (s.sup.quiet ≠ 0 → s.sup.stat = 0xC) ∧
      (s.sup.quiet = 0 → s.sup.restarting = true ∨ s.fw.reading = true → s.sup.stat = 0xD) ∧
      (s.sup.quiet = 0 → s.sup.restarting = false → s.fw.reading = false →
        ((∃ c : ChanId, s.pcd.ch[c].st.protection = true) → s.sup.stat = 0x2) ∧
        ((∀ c : ChanId, s.pcd.ch[c].st.protection = false) →
          ((∃ g : GrpId, s.grp[g].givenUp = true) ∨ (∃ e : EngId, s.eng[e].retired = true) → s.sup.stat = 0x4) ∧
          ((∀ g : GrpId, s.grp[g].givenUp = false) → (∀ e : EngId, s.eng[e].retired = false) →
            ((∃ p : PortId, s.port[p].st = .lost) → s.sup.stat = 0x5) ∧
            ((∀ p : PortId, s.port[p].st ≠ .lost) →
              (s.linkTrouble = true → s.sup.stat = 0x6) ∧
              (s.linkTrouble = false →
                (s.clk.actSrc ≠ s.clk.refOrder.head? → s.sup.stat = 0x7) ∧
                (s.clk.actSrc = s.clk.refOrder.head? →
                  ((∃ c : ChanId, s.pcd.ch[c].folding = true) → s.sup.stat = 0x3) ∧
                  ((∀ c : ChanId, s.pcd.ch[c].folding = false) → s.sup.stat = 0x0))))))))

/-- Every memory stays in its canonical form: whatever the command, a step from a state whose delay memories, engine memories,
parameter arrays and snapshots list rising addresses and no zero leaves a state in which they still do (the spaces are those of
R19, R126 and R129; the form is the model's, log 11). -/
def Obligations.MemoriesKept : Prop :=
  ∀ s t : State, MemoriesSound s → step s = .next t → MemoriesSound t
end

