-- ==== Sys2Proof/Laws/State.lean ====
section
/-! SUPPORT. What each update of one part of the state leaves alone, and what it writes: a simp lemma each, so that no
later proof unfolds a record update. -/
namespace Sys2Proof.Machine
open Sys2Proof

@[simp] theorem State.modEng_frame (s : State) (e : EngId) (f : Engine → Engine) :
    (s.modEng e f).clk = s.clk ∧ (s.modEng e f).sup = s.sup ∧ (s.modEng e f).boot = s.boot ∧ (s.modEng e f).host = s.host ∧
    (s.modEng e f).fw = s.fw ∧ (s.modEng e f).tile = s.tile ∧ (s.modEng e f).grp = s.grp ∧ (s.modEng e f).mtx = s.mtx ∧
    (s.modEng e f).gen = s.gen ∧ (s.modEng e f).sad = s.sad ∧ (s.modEng e f).port = s.port ∧ (s.modEng e f).mic = s.mic ∧
    (s.modEng e f).pcd = s.pcd ∧ (s.modEng e f).link = s.link ∧ (s.modEng e f).peri = s.peri ∧
    (s.modEng e f).free = s.free ∧ (s.modEng e f).pending = s.pending := by
  and_intros <;> rfl

@[simp] theorem State.modEng_at (s : State) (e : EngId) (f : Engine → Engine) :
    (s.modEng e f).eng = vmod s.eng e f := rfl

@[simp] theorem State.modGrp_frame (s : State) (e : GrpId) (f : Group → Group) :
    (s.modGrp e f).clk = s.clk ∧ (s.modGrp e f).sup = s.sup ∧ (s.modGrp e f).boot = s.boot ∧ (s.modGrp e f).host = s.host ∧
    (s.modGrp e f).fw = s.fw ∧ (s.modGrp e f).eng = s.eng ∧ (s.modGrp e f).tile = s.tile ∧ (s.modGrp e f).mtx = s.mtx ∧
    (s.modGrp e f).gen = s.gen ∧ (s.modGrp e f).sad = s.sad ∧ (s.modGrp e f).port = s.port ∧ (s.modGrp e f).mic = s.mic ∧
    (s.modGrp e f).pcd = s.pcd ∧ (s.modGrp e f).link = s.link ∧ (s.modGrp e f).peri = s.peri ∧
    (s.modGrp e f).free = s.free ∧ (s.modGrp e f).pending = s.pending := by
  and_intros <;> rfl

@[simp] theorem State.modGrp_at (s : State) (e : GrpId) (f : Group → Group) :
    (s.modGrp e f).grp = vmod s.grp e f := rfl

@[simp] theorem State.modTile_frame (s : State) (e : TileId) (f : TileMem → TileMem) :
    (s.modTile e f).clk = s.clk ∧ (s.modTile e f).sup = s.sup ∧ (s.modTile e f).boot = s.boot ∧
    (s.modTile e f).host = s.host ∧ (s.modTile e f).fw = s.fw ∧ (s.modTile e f).eng = s.eng ∧ (s.modTile e f).grp = s.grp ∧
    (s.modTile e f).mtx = s.mtx ∧ (s.modTile e f).gen = s.gen ∧ (s.modTile e f).sad = s.sad ∧
    (s.modTile e f).port = s.port ∧ (s.modTile e f).mic = s.mic ∧ (s.modTile e f).pcd = s.pcd ∧
    (s.modTile e f).link = s.link ∧ (s.modTile e f).peri = s.peri ∧ (s.modTile e f).free = s.free ∧
    (s.modTile e f).pending = s.pending := by
  and_intros <;> rfl

@[simp] theorem State.modTile_at (s : State) (e : TileId) (f : TileMem → TileMem) :
    (s.modTile e f).tile = vmod s.tile e f := rfl

@[simp] theorem State.modGen_frame (s : State) (e : GenId) (f : Gen → Gen) :
    (s.modGen e f).clk = s.clk ∧ (s.modGen e f).sup = s.sup ∧ (s.modGen e f).boot = s.boot ∧ (s.modGen e f).host = s.host ∧
    (s.modGen e f).fw = s.fw ∧ (s.modGen e f).eng = s.eng ∧ (s.modGen e f).tile = s.tile ∧ (s.modGen e f).grp = s.grp ∧
    (s.modGen e f).mtx = s.mtx ∧ (s.modGen e f).sad = s.sad ∧ (s.modGen e f).port = s.port ∧ (s.modGen e f).mic = s.mic ∧
    (s.modGen e f).pcd = s.pcd ∧ (s.modGen e f).link = s.link ∧ (s.modGen e f).peri = s.peri ∧
    (s.modGen e f).free = s.free ∧ (s.modGen e f).pending = s.pending := by
  and_intros <;> rfl

@[simp] theorem State.modGen_at (s : State) (e : GenId) (f : Gen → Gen) :
    (s.modGen e f).gen = vmod s.gen e f := rfl

@[simp] theorem State.modSad_frame (s : State) (e : SadId) (f : Saddle → Saddle) :
    (s.modSad e f).clk = s.clk ∧ (s.modSad e f).sup = s.sup ∧ (s.modSad e f).boot = s.boot ∧ (s.modSad e f).host = s.host ∧
    (s.modSad e f).fw = s.fw ∧ (s.modSad e f).eng = s.eng ∧ (s.modSad e f).tile = s.tile ∧ (s.modSad e f).grp = s.grp ∧
    (s.modSad e f).mtx = s.mtx ∧ (s.modSad e f).gen = s.gen ∧ (s.modSad e f).port = s.port ∧ (s.modSad e f).mic = s.mic ∧
    (s.modSad e f).pcd = s.pcd ∧ (s.modSad e f).link = s.link ∧ (s.modSad e f).peri = s.peri ∧
    (s.modSad e f).free = s.free ∧ (s.modSad e f).pending = s.pending := by
  and_intros <;> rfl

@[simp] theorem State.modSad_at (s : State) (e : SadId) (f : Saddle → Saddle) :
    (s.modSad e f).sad = vmod s.sad e f := rfl

@[simp] theorem State.modPort_frame (s : State) (e : PortId) (f : Port → Port) :
    (s.modPort e f).clk = s.clk ∧ (s.modPort e f).sup = s.sup ∧ (s.modPort e f).boot = s.boot ∧
    (s.modPort e f).host = s.host ∧ (s.modPort e f).fw = s.fw ∧ (s.modPort e f).eng = s.eng ∧
    (s.modPort e f).tile = s.tile ∧ (s.modPort e f).grp = s.grp ∧ (s.modPort e f).mtx = s.mtx ∧
    (s.modPort e f).gen = s.gen ∧ (s.modPort e f).sad = s.sad ∧ (s.modPort e f).mic = s.mic ∧ (s.modPort e f).pcd = s.pcd ∧
    (s.modPort e f).link = s.link ∧ (s.modPort e f).peri = s.peri ∧ (s.modPort e f).free = s.free ∧
    (s.modPort e f).pending = s.pending := by
  and_intros <;> rfl

@[simp] theorem State.modPort_at (s : State) (e : PortId) (f : Port → Port) :
    (s.modPort e f).port = vmod s.port e f := rfl

@[simp] theorem State.modMic_frame (s : State) (e : MicId) (f : Mic → Mic) :
    (s.modMic e f).clk = s.clk ∧ (s.modMic e f).sup = s.sup ∧ (s.modMic e f).boot = s.boot ∧ (s.modMic e f).host = s.host ∧
    (s.modMic e f).fw = s.fw ∧ (s.modMic e f).eng = s.eng ∧ (s.modMic e f).tile = s.tile ∧ (s.modMic e f).grp = s.grp ∧
    (s.modMic e f).mtx = s.mtx ∧ (s.modMic e f).gen = s.gen ∧ (s.modMic e f).sad = s.sad ∧ (s.modMic e f).port = s.port ∧
    (s.modMic e f).pcd = s.pcd ∧ (s.modMic e f).link = s.link ∧ (s.modMic e f).peri = s.peri ∧
    (s.modMic e f).free = s.free ∧ (s.modMic e f).pending = s.pending := by
  and_intros <;> rfl

@[simp] theorem State.modMic_at (s : State) (e : MicId) (f : Mic → Mic) :
    (s.modMic e f).mic = vmod s.mic e f := rfl

@[simp] theorem State.modCh_frame (s : State) (e : ChanId) (f : Chan → Chan) :
    (s.modCh e f).clk = s.clk ∧ (s.modCh e f).sup = s.sup ∧ (s.modCh e f).boot = s.boot ∧ (s.modCh e f).host = s.host ∧
    (s.modCh e f).fw = s.fw ∧ (s.modCh e f).eng = s.eng ∧ (s.modCh e f).tile = s.tile ∧ (s.modCh e f).grp = s.grp ∧
    (s.modCh e f).mtx = s.mtx ∧ (s.modCh e f).gen = s.gen ∧ (s.modCh e f).sad = s.sad ∧ (s.modCh e f).port = s.port ∧
    (s.modCh e f).mic = s.mic ∧ (s.modCh e f).link = s.link ∧ (s.modCh e f).peri = s.peri ∧ (s.modCh e f).free = s.free ∧
    (s.modCh e f).pending = s.pending ∧ (s.modCh e f).pcd.rail = s.pcd.rail ∧ (s.modCh e f).pcd.vbatsMv = s.pcd.vbatsMv ∧
    (s.modCh e f).pcd.muteHigh = s.pcd.muteHigh ∧ (s.modCh e f).pcd.gm = s.pcd.gm ∧ (s.modCh e f).pcd.pcdT = s.pcd.pcdT ∧
    (s.modCh e f).pcd.dieT = s.pcd.dieT ∧ (s.modCh e f).pcd.tFoldDie = s.pcd.tFoldDie ∧
    (s.modCh e f).pcd.tStopDie = s.pcd.tStopDie ∧ (s.modCh e f).pcd.dieIn = s.pcd.dieIn ∧
    (s.modCh e f).pcd.watch = s.pcd.watch ∧ (s.modCh e f).pcd.skew = s.pcd.skew ∧
    (s.modCh e f).pcd.rephase = s.pcd.rephase ∧ (s.modCh e f).pcd.streamLost = s.pcd.streamLost ∧
    (s.modCh e f).pcd.refClock = s.pcd.refClock ∧ (s.modCh e f).pcd.supplyLow = s.pcd.supplyLow ∧
    (s.modCh e f).pcd.quiet = s.pcd.quiet := by
  and_intros <;> rfl

@[simp] theorem State.modCh_at (s : State) (e : ChanId) (f : Chan → Chan) :
    (s.modCh e f).pcd.ch = vmod s.pcd.ch e f := rfl

@[simp] theorem State.modRail_frame (s : State) (e : RailId) (f : Rail → Rail) :
    (s.modRail e f).clk = s.clk ∧ (s.modRail e f).sup = s.sup ∧ (s.modRail e f).boot = s.boot ∧
    (s.modRail e f).host = s.host ∧ (s.modRail e f).fw = s.fw ∧ (s.modRail e f).eng = s.eng ∧
    (s.modRail e f).tile = s.tile ∧ (s.modRail e f).grp = s.grp ∧ (s.modRail e f).mtx = s.mtx ∧
    (s.modRail e f).gen = s.gen ∧ (s.modRail e f).sad = s.sad ∧ (s.modRail e f).port = s.port ∧
    (s.modRail e f).mic = s.mic ∧ (s.modRail e f).link = s.link ∧ (s.modRail e f).peri = s.peri ∧
    (s.modRail e f).free = s.free ∧ (s.modRail e f).pending = s.pending ∧ (s.modRail e f).pcd.ch = s.pcd.ch ∧
    (s.modRail e f).pcd.vbatsMv = s.pcd.vbatsMv ∧ (s.modRail e f).pcd.muteHigh = s.pcd.muteHigh ∧
    (s.modRail e f).pcd.gm = s.pcd.gm ∧ (s.modRail e f).pcd.pcdT = s.pcd.pcdT ∧ (s.modRail e f).pcd.dieT = s.pcd.dieT ∧
    (s.modRail e f).pcd.tFoldDie = s.pcd.tFoldDie ∧ (s.modRail e f).pcd.tStopDie = s.pcd.tStopDie ∧
    (s.modRail e f).pcd.dieIn = s.pcd.dieIn ∧ (s.modRail e f).pcd.watch = s.pcd.watch ∧
    (s.modRail e f).pcd.skew = s.pcd.skew ∧ (s.modRail e f).pcd.rephase = s.pcd.rephase ∧
    (s.modRail e f).pcd.streamLost = s.pcd.streamLost ∧ (s.modRail e f).pcd.refClock = s.pcd.refClock ∧
    (s.modRail e f).pcd.supplyLow = s.pcd.supplyLow ∧ (s.modRail e f).pcd.quiet = s.pcd.quiet := by
  and_intros <;> rfl

@[simp] theorem State.modRail_at (s : State) (e : RailId) (f : Rail → Rail) :
    (s.modRail e f).pcd.rail = vmod s.pcd.rail e f := rfl

@[simp] theorem State.modCol_frame (s : State) (e : Fin 256) (f : Col → Col) :
    (s.modCol e f).clk = s.clk ∧ (s.modCol e f).sup = s.sup ∧ (s.modCol e f).boot = s.boot ∧ (s.modCol e f).host = s.host ∧
    (s.modCol e f).fw = s.fw ∧ (s.modCol e f).eng = s.eng ∧ (s.modCol e f).tile = s.tile ∧ (s.modCol e f).grp = s.grp ∧
    (s.modCol e f).gen = s.gen ∧ (s.modCol e f).sad = s.sad ∧ (s.modCol e f).port = s.port ∧ (s.modCol e f).mic = s.mic ∧
    (s.modCol e f).pcd = s.pcd ∧ (s.modCol e f).link = s.link ∧ (s.modCol e f).peri = s.peri ∧
    (s.modCol e f).free = s.free ∧ (s.modCol e f).pending = s.pending ∧ (s.modCol e f).mtx.xp = s.mtx.xp ∧
    (s.modCol e f).mtx.rows = s.mtx.rows ∧ (s.modCol e f).mtx.hist = s.mtx.hist ∧ (s.modCol e f).mtx.selB = s.mtx.selB ∧
    (s.modCol e f).mtx.armed = s.mtx.armed ∧ (s.modCol e f).mtx.rp = s.mtx.rp ∧ (s.modCol e f).mtx.prio = s.mtx.prio ∧
    (s.modCol e f).mtx.snap = s.mtx.snap ∧ (s.modCol e f).mtx.col = s.mtx.col ∧ (s.modCol e f).mtx.colPrev = s.mtx.colPrev ∧
    (s.modCol e f).mtx.raw = s.mtx.raw ∧ (s.modCol e f).mtx.rawPrev = s.mtx.rawPrev ∧
    (s.modCol e f).mtx.pattern = s.mtx.pattern ∧ (s.modCol e f).mtx.parity = s.mtx.parity ∧
    (s.modCol e f).mtx.fault = s.mtx.fault ∧ (s.modCol e f).mtx.resumed = s.mtx.resumed := by
  and_intros <;> rfl

@[simp] theorem State.modCol_at (s : State) (e : Fin 256) (f : Col → Col) :
    (s.modCol e f).mtx.cols = vmod s.mtx.cols e f := rfl

@[simp] theorem State.modRPort_frame (s : State) (e : RidgeId) (f : RPort → RPort) :
    (s.modRPort e f).clk = s.clk ∧ (s.modRPort e f).sup = s.sup ∧ (s.modRPort e f).boot = s.boot ∧
    (s.modRPort e f).host = s.host ∧ (s.modRPort e f).fw = s.fw ∧ (s.modRPort e f).eng = s.eng ∧
    (s.modRPort e f).tile = s.tile ∧ (s.modRPort e f).grp = s.grp ∧ (s.modRPort e f).mtx = s.mtx ∧
    (s.modRPort e f).gen = s.gen ∧ (s.modRPort e f).sad = s.sad ∧ (s.modRPort e f).port = s.port ∧
    (s.modRPort e f).mic = s.mic ∧ (s.modRPort e f).pcd = s.pcd ∧ (s.modRPort e f).peri = s.peri ∧
    (s.modRPort e f).free = s.free ∧ (s.modRPort e f).pending = s.pending ∧ (s.modRPort e f).link.pos = s.link.pos ∧
    (s.modRPort e f).link.segid = s.link.segid ∧ (s.modRPort e f).link.joined = s.link.joined ∧
    (s.modRPort e f).link.left = s.link.left ∧ (s.modRPort e f).link.active = s.link.active ∧
    (s.modRPort e f).link.standby = s.link.standby ∧ (s.modRPort e f).link.paired = s.link.paired ∧
    (s.modRPort e f).link.originE = s.link.originE ∧ (s.modRPort e f).link.originW = s.link.originW ∧
    (s.modRPort e f).link.timingWest = s.link.timingWest ∧ (s.modRPort e f).link.tdist = s.link.tdist ∧
    (s.modRPort e f).link.mgrPos = s.link.mgrPos ∧ (s.modRPort e f).link.stbyPos = s.link.stbyPos ∧
    (s.modRPort e f).link.epoch = s.link.epoch ∧ (s.modRPort e f).link.hbSeq = s.link.hbSeq ∧
    (s.modRPort e f).link.sync = s.link.sync ∧ (s.modRPort e f).link.refreshing = s.link.refreshing ∧
    (s.modRPort e f).link.mseq = s.link.mseq ∧ (s.modRPort e f).link.refreshAt = s.link.refreshAt ∧
    (s.modRPort e f).link.mirrorNo = s.link.mirrorNo ∧ (s.modRPort e f).link.mirrored = s.link.mirrored ∧
    (s.modRPort e f).link.tx = s.link.tx ∧ (s.modRPort e f).link.grants = s.link.grants ∧
    (s.modRPort e f).link.grantsAll = s.link.grantsAll ∧ (s.modRPort e f).link.taps = s.link.taps ∧
    (s.modRPort e f).link.members = s.link.members ∧ (s.modRPort e f).link.segs = s.link.segs ∧
    (s.modRPort e f).link.spurSeg = s.link.spurSeg ∧ (s.modRPort e f).link.vetted = s.link.vetted ∧
    (s.modRPort e f).link.twins = s.link.twins ∧ (s.modRPort e f).link.comp = s.link.comp ∧
    (s.modRPort e f).link.routes = s.link.routes ∧ (s.modRPort e f).link.nextRoute = s.link.nextRoute ∧
    (s.modRPort e f).link.bridges = s.link.bridges ∧ (s.modRPort e f).link.tdnSeq = s.link.tdnSeq ∧
    (s.modRPort e f).link.tunnelOut = s.link.tunnelOut ∧ (s.modRPort e f).link.tunnelAck = s.link.tunnelAck ∧
    (s.modRPort e f).link.ackLive = s.link.ackLive ∧ (s.modRPort e f).link.tunnelled = s.link.tunnelled ∧
    (s.modRPort e f).link.tup = s.link.tup ∧ (s.modRPort e f).link.tupSeq = s.link.tupSeq ∧
    (s.modRPort e f).link.tupAck = s.link.tupAck ∧ (s.modRPort e f).link.tupSeen = s.link.tupSeen ∧
    (s.modRPort e f).link.asks = s.link.asks ∧ (s.modRPort e f).link.ownKeys = s.link.ownKeys ∧
    (s.modRPort e f).link.schedOut = s.link.schedOut ∧ (s.modRPort e f).link.schedSent = s.link.schedSent ∧
    (s.modRPort e f).link.cg = s.link.cg ∧ (s.modRPort e f).link.jobs = s.link.jobs ∧
    (s.modRPort e f).link.jobSeq = s.link.jobSeq ∧ (s.modRPort e f).link.nextSched = s.link.nextSched ∧
    (s.modRPort e f).link.errEast = s.link.errEast ∧ (s.modRPort e f).link.errWest = s.link.errWest ∧
    (s.modRPort e f).link.errSpur0 = s.link.errSpur0 ∧ (s.modRPort e f).link.errSpur1 = s.link.errSpur1 ∧
    (s.modRPort e f).link.consist = s.link.consist ∧ (s.modRPort e f).link.graph = s.link.graph ∧
    (s.modRPort e f).link.sent = s.link.sent ∧ (s.modRPort e f).link.admitOut = s.link.admitOut ∧
    (s.modRPort e f).link.admitAck = s.link.admitAck ∧ (s.modRPort e f).link.admitSeen = s.link.admitSeen := by
  and_intros <;> rfl

@[simp] theorem State.modRPort_at (s : State) (e : RidgeId) (f : RPort → RPort) :
    (s.modRPort e f).link.ports = vmod s.link.ports e f := rfl

@[simp] theorem State.modMbi_frame (s : State) (e : BoxId) (f : Mbi → Mbi) :
    (s.modMbi e f).clk = s.clk ∧ (s.modMbi e f).sup = s.sup ∧ (s.modMbi e f).boot = s.boot ∧ (s.modMbi e f).fw = s.fw ∧
    (s.modMbi e f).eng = s.eng ∧ (s.modMbi e f).tile = s.tile ∧ (s.modMbi e f).grp = s.grp ∧ (s.modMbi e f).mtx = s.mtx ∧
    (s.modMbi e f).gen = s.gen ∧ (s.modMbi e f).sad = s.sad ∧ (s.modMbi e f).port = s.port ∧ (s.modMbi e f).mic = s.mic ∧
    (s.modMbi e f).pcd = s.pcd ∧ (s.modMbi e f).link = s.link ∧ (s.modMbi e f).peri = s.peri ∧
    (s.modMbi e f).free = s.free ∧ (s.modMbi e f).pending = s.pending ∧ (s.modMbi e f).host.ready = s.host.ready ∧
    (s.modMbi e f).host.badcmd = s.host.badcmd ∧ (s.modMbi e f).host.addrOvr = s.host.addrOvr ∧
    (s.modMbi e f).host.cfgerr = s.host.cfgerr ∧ (s.modMbi e f).host.sysHi = s.host.sysHi ∧
    (s.modMbi e f).host.tickLat = s.host.tickLat ∧ (s.modMbi e f).host.frameLat = s.host.frameLat ∧
    (s.modMbi e f).host.intsrc = s.host.intsrc ∧ (s.modMbi e f).host.inten = s.host.inten ∧
    (s.modMbi e f).host.scratch = s.host.scratch ∧ (s.modMbi e f).host.resp = s.host.resp ∧
    (s.modMbi e f).host.hdo = s.host.hdo ∧ (s.modMbi e f).host.mbo = s.host.mbo := by
  and_intros <;> rfl

@[simp] theorem State.modMbi_at (s : State) (e : BoxId) (f : Mbi → Mbi) :
    (s.modMbi e f).host.mbi = vmod s.host.mbi e f := rfl

@[simp] theorem State.modMbo_frame (s : State) (e : BoxId) (f : Mbo → Mbo) :
    (s.modMbo e f).clk = s.clk ∧ (s.modMbo e f).sup = s.sup ∧ (s.modMbo e f).boot = s.boot ∧ (s.modMbo e f).fw = s.fw ∧
    (s.modMbo e f).eng = s.eng ∧ (s.modMbo e f).tile = s.tile ∧ (s.modMbo e f).grp = s.grp ∧ (s.modMbo e f).mtx = s.mtx ∧
    (s.modMbo e f).gen = s.gen ∧ (s.modMbo e f).sad = s.sad ∧ (s.modMbo e f).port = s.port ∧ (s.modMbo e f).mic = s.mic ∧
    (s.modMbo e f).pcd = s.pcd ∧ (s.modMbo e f).link = s.link ∧ (s.modMbo e f).peri = s.peri ∧
    (s.modMbo e f).free = s.free ∧ (s.modMbo e f).pending = s.pending ∧ (s.modMbo e f).host.ready = s.host.ready ∧
    (s.modMbo e f).host.badcmd = s.host.badcmd ∧ (s.modMbo e f).host.addrOvr = s.host.addrOvr ∧
    (s.modMbo e f).host.cfgerr = s.host.cfgerr ∧ (s.modMbo e f).host.sysHi = s.host.sysHi ∧
    (s.modMbo e f).host.tickLat = s.host.tickLat ∧ (s.modMbo e f).host.frameLat = s.host.frameLat ∧
    (s.modMbo e f).host.intsrc = s.host.intsrc ∧ (s.modMbo e f).host.inten = s.host.inten ∧
    (s.modMbo e f).host.scratch = s.host.scratch ∧ (s.modMbo e f).host.resp = s.host.resp ∧
    (s.modMbo e f).host.hdo = s.host.hdo ∧ (s.modMbo e f).host.mbi = s.host.mbi := by
  and_intros <;> rfl

@[simp] theorem State.modMbo_at (s : State) (e : BoxId) (f : Mbo → Mbo) :
    (s.modMbo e f).host.mbo = vmod s.host.mbo e f := rfl

@[simp] theorem State.modQ_frame (s : State) (e : BoxId) (f : List Msg → List Msg) :
    (s.modQ e f).clk = s.clk ∧ (s.modQ e f).sup = s.sup ∧ (s.modQ e f).boot = s.boot ∧ (s.modQ e f).host = s.host ∧
    (s.modQ e f).eng = s.eng ∧ (s.modQ e f).tile = s.tile ∧ (s.modQ e f).grp = s.grp ∧ (s.modQ e f).mtx = s.mtx ∧
    (s.modQ e f).gen = s.gen ∧ (s.modQ e f).sad = s.sad ∧ (s.modQ e f).port = s.port ∧ (s.modQ e f).mic = s.mic ∧
    (s.modQ e f).pcd = s.pcd ∧ (s.modQ e f).link = s.link ∧ (s.modQ e f).peri = s.peri ∧ (s.modQ e f).free = s.free ∧
    (s.modQ e f).pending = s.pending ∧ (s.modQ e f).fw.started = s.fw.started ∧ (s.modQ e f).fw.reading = s.fw.reading ∧
    (s.modQ e f).fw.evSeq = s.fw.evSeq ∧ (s.modQ e f).fw.allOff = s.fw.allOff ∧ (s.modQ e f).fw.evExc = s.fw.evExc ∧
    (s.modQ e f).fw.loss = s.fw.loss ∧ (s.modQ e f).fw.drop0 = s.fw.drop0 ∧ (s.modQ e f).fw.drop3 = s.fw.drop3 ∧
    (s.modQ e f).fw.lostHeld = s.fw.lostHeld ∧ (s.modQ e f).fw.handle = s.fw.handle ∧
    (s.modQ e f).fw.outHandle = s.fw.outHandle ∧ (s.modQ e f).fw.sleep = s.fw.sleep ∧ (s.modQ e f).fw.kaInt = s.fw.kaInt ∧
    (s.modQ e f).fw.kaQuiet = s.fw.kaQuiet ∧ (s.modQ e f).fw.kaLapsed = s.fw.kaLapsed ∧ (s.modQ e f).fw.sched = s.fw.sched ∧
    (s.modQ e f).fw.made = s.fw.made ∧ (s.modQ e f).fw.heldTune = s.fw.heldTune ∧ (s.modQ e f).fw.zone = s.fw.zone ∧
    (s.modQ e f).fw.twinOn = s.fw.twinOn ∧ (s.modQ e f).fw.raise = s.fw.raise ∧ (s.modQ e f).fw.clamped = s.fw.clamped ∧
    (s.modQ e f).fw.restartOn = s.fw.restartOn ∧ (s.modQ e f).fw.migrHours = s.fw.migrHours ∧
    (s.modQ e f).fw.migrNext = s.fw.migrNext ∧ (s.modQ e f).fw.bulkOut = s.fw.bulkOut ∧
    (s.modQ e f).fw.mirrorWait = s.fw.mirrorWait ∧ (s.modQ e f).fw.line = s.fw.line := by
  and_intros <;> rfl

@[simp] theorem State.modQ_at (s : State) (e : BoxId) (f : List Msg → List Msg) :
    (s.modQ e f).fw.q = vmod s.fw.q e f := rfl

@[simp] theorem State.modZone_frame (s : State) (e : ZoneId) (f : Zone → Zone) :
    (s.modZone e f).clk = s.clk ∧ (s.modZone e f).sup = s.sup ∧ (s.modZone e f).boot = s.boot ∧
    (s.modZone e f).host = s.host ∧ (s.modZone e f).eng = s.eng ∧ (s.modZone e f).tile = s.tile ∧
    (s.modZone e f).grp = s.grp ∧ (s.modZone e f).mtx = s.mtx ∧ (s.modZone e f).gen = s.gen ∧ (s.modZone e f).sad = s.sad ∧
    (s.modZone e f).port = s.port ∧ (s.modZone e f).mic = s.mic ∧ (s.modZone e f).pcd = s.pcd ∧
    (s.modZone e f).link = s.link ∧ (s.modZone e f).peri = s.peri ∧ (s.modZone e f).free = s.free ∧
    (s.modZone e f).pending = s.pending ∧ (s.modZone e f).fw.started = s.fw.started ∧
    (s.modZone e f).fw.reading = s.fw.reading ∧ (s.modZone e f).fw.q = s.fw.q ∧ (s.modZone e f).fw.evSeq = s.fw.evSeq ∧
    (s.modZone e f).fw.allOff = s.fw.allOff ∧ (s.modZone e f).fw.evExc = s.fw.evExc ∧ (s.modZone e f).fw.loss = s.fw.loss ∧
    (s.modZone e f).fw.drop0 = s.fw.drop0 ∧ (s.modZone e f).fw.drop3 = s.fw.drop3 ∧
    (s.modZone e f).fw.lostHeld = s.fw.lostHeld ∧ (s.modZone e f).fw.handle = s.fw.handle ∧
    (s.modZone e f).fw.outHandle = s.fw.outHandle ∧ (s.modZone e f).fw.sleep = s.fw.sleep ∧
    (s.modZone e f).fw.kaInt = s.fw.kaInt ∧ (s.modZone e f).fw.kaQuiet = s.fw.kaQuiet ∧
    (s.modZone e f).fw.kaLapsed = s.fw.kaLapsed ∧ (s.modZone e f).fw.sched = s.fw.sched ∧
    (s.modZone e f).fw.made = s.fw.made ∧ (s.modZone e f).fw.heldTune = s.fw.heldTune ∧
    (s.modZone e f).fw.twinOn = s.fw.twinOn ∧ (s.modZone e f).fw.raise = s.fw.raise ∧
    (s.modZone e f).fw.clamped = s.fw.clamped ∧ (s.modZone e f).fw.restartOn = s.fw.restartOn ∧
    (s.modZone e f).fw.migrHours = s.fw.migrHours ∧ (s.modZone e f).fw.migrNext = s.fw.migrNext ∧
    (s.modZone e f).fw.bulkOut = s.fw.bulkOut ∧ (s.modZone e f).fw.mirrorWait = s.fw.mirrorWait ∧
    (s.modZone e f).fw.line = s.fw.line := by
  and_intros <;> rfl

@[simp] theorem State.modZone_at (s : State) (e : ZoneId) (f : Zone → Zone) :
    (s.modZone e f).fw.zone = vmod s.fw.zone e f := rfl

@[simp] theorem State.modOut_frame (s : State) (e : Fin 8) (f : ClkOut → ClkOut) :
    (s.modOut e f).sup = s.sup ∧ (s.modOut e f).boot = s.boot ∧ (s.modOut e f).host = s.host ∧ (s.modOut e f).fw = s.fw ∧
    (s.modOut e f).eng = s.eng ∧ (s.modOut e f).tile = s.tile ∧ (s.modOut e f).grp = s.grp ∧ (s.modOut e f).mtx = s.mtx ∧
    (s.modOut e f).gen = s.gen ∧ (s.modOut e f).sad = s.sad ∧ (s.modOut e f).port = s.port ∧ (s.modOut e f).mic = s.mic ∧
    (s.modOut e f).pcd = s.pcd ∧ (s.modOut e f).link = s.link ∧ (s.modOut e f).peri = s.peri ∧
    (s.modOut e f).free = s.free ∧ (s.modOut e f).pending = s.pending ∧ (s.modOut e f).clk.sysCnt = s.clk.sysCnt ∧
    (s.modOut e f).clk.sysHold = s.clk.sysHold ∧ (s.modOut e f).clk.tick = s.clk.tick ∧
    (s.modOut e f).clk.frame = s.clk.frame ∧ (s.modOut e f).clk.cyc = s.clk.cyc ∧ (s.modOut e f).clk.now = s.clk.now ∧
    (s.modOut e f).clk.tickRun = s.clk.tickRun ∧ (s.modOut e f).clk.mrate = s.clk.mrate ∧
    (s.modOut e f).clk.family = s.clk.family ∧ (s.modOut e f).clk.actSrc = s.clk.actSrc ∧
    (s.modOut e f).clk.qual = s.clk.qual ∧ (s.modOut e f).clk.hold = s.clk.hold ∧ (s.modOut e f).clk.holdAt = s.clk.holdAt ∧
    (s.modOut e f).clk.holdIn = s.clk.holdIn ∧ (s.modOut e f).clk.limitHit = s.clk.limitHit ∧
    (s.modOut e f).clk.lostSrc = s.clk.lostSrc ∧ (s.modOut e f).clk.fallback = s.clk.fallback ∧
    (s.modOut e f).clk.sysLock = s.clk.sysLock ∧ (s.modOut e f).clk.lnkLock = s.clk.lnkLock ∧
    (s.modOut e f).clk.asn = s.clk.asn ∧ (s.modOut e f).clk.band = s.clk.band ∧ (s.modOut e f).clk.bandIn = s.clk.bandIn ∧
    (s.modOut e f).clk.bucketIn = s.clk.bucketIn ∧ (s.modOut e f).clk.refOrder = s.clk.refOrder ∧
    (s.modOut e f).clk.lockWin = s.clk.lockWin ∧ (s.modOut e f).clk.lockN = s.clk.lockN ∧
    (s.modOut e f).clk.holdLim = s.clk.holdLim ∧ (s.modOut e f).clk.syncByFrame = s.clk.syncByFrame ∧
    (s.modOut e f).clk.syncFrame = s.clk.syncFrame ∧ (s.modOut e f).clk.syncPend = s.clk.syncPend ∧
    (s.modOut e f).clk.lastE = s.clk.lastE ∧ (s.modOut e f).clk.lastRealign = s.clk.lastRealign ∧
    (s.modOut e f).clk.realign = s.clk.realign ∧ (s.modOut e f).clk.factor = s.clk.factor ∧
    (s.modOut e f).clk.cntPend = s.clk.cntPend := by
  and_intros <;> rfl

@[simp] theorem State.modOut_at (s : State) (e : Fin 8) (f : ClkOut → ClkOut) :
    (s.modOut e f).clk.out = vmod s.clk.out e f := rfl

@[simp] theorem State.modAs_frame (s : State) (e : Fin 4) (f : AsSyn → AsSyn) :
    (s.modAs e f).sup = s.sup ∧ (s.modAs e f).boot = s.boot ∧ (s.modAs e f).host = s.host ∧ (s.modAs e f).fw = s.fw ∧
    (s.modAs e f).eng = s.eng ∧ (s.modAs e f).tile = s.tile ∧ (s.modAs e f).grp = s.grp ∧ (s.modAs e f).mtx = s.mtx ∧
    (s.modAs e f).gen = s.gen ∧ (s.modAs e f).sad = s.sad ∧ (s.modAs e f).port = s.port ∧ (s.modAs e f).mic = s.mic ∧
    (s.modAs e f).pcd = s.pcd ∧ (s.modAs e f).link = s.link ∧ (s.modAs e f).peri = s.peri ∧ (s.modAs e f).free = s.free ∧
    (s.modAs e f).pending = s.pending ∧ (s.modAs e f).clk.sysCnt = s.clk.sysCnt ∧
    (s.modAs e f).clk.sysHold = s.clk.sysHold ∧ (s.modAs e f).clk.tick = s.clk.tick ∧
    (s.modAs e f).clk.frame = s.clk.frame ∧ (s.modAs e f).clk.cyc = s.clk.cyc ∧ (s.modAs e f).clk.now = s.clk.now ∧
    (s.modAs e f).clk.tickRun = s.clk.tickRun ∧ (s.modAs e f).clk.mrate = s.clk.mrate ∧
    (s.modAs e f).clk.family = s.clk.family ∧ (s.modAs e f).clk.actSrc = s.clk.actSrc ∧
    (s.modAs e f).clk.qual = s.clk.qual ∧ (s.modAs e f).clk.hold = s.clk.hold ∧ (s.modAs e f).clk.holdAt = s.clk.holdAt ∧
    (s.modAs e f).clk.holdIn = s.clk.holdIn ∧ (s.modAs e f).clk.limitHit = s.clk.limitHit ∧
    (s.modAs e f).clk.lostSrc = s.clk.lostSrc ∧ (s.modAs e f).clk.fallback = s.clk.fallback ∧
    (s.modAs e f).clk.sysLock = s.clk.sysLock ∧ (s.modAs e f).clk.lnkLock = s.clk.lnkLock ∧
    (s.modAs e f).clk.band = s.clk.band ∧ (s.modAs e f).clk.bandIn = s.clk.bandIn ∧
    (s.modAs e f).clk.bucketIn = s.clk.bucketIn ∧ (s.modAs e f).clk.refOrder = s.clk.refOrder ∧
    (s.modAs e f).clk.lockWin = s.clk.lockWin ∧ (s.modAs e f).clk.lockN = s.clk.lockN ∧
    (s.modAs e f).clk.holdLim = s.clk.holdLim ∧ (s.modAs e f).clk.out = s.clk.out ∧
    (s.modAs e f).clk.syncByFrame = s.clk.syncByFrame ∧ (s.modAs e f).clk.syncFrame = s.clk.syncFrame ∧
    (s.modAs e f).clk.syncPend = s.clk.syncPend ∧ (s.modAs e f).clk.lastE = s.clk.lastE ∧
    (s.modAs e f).clk.lastRealign = s.clk.lastRealign ∧ (s.modAs e f).clk.realign = s.clk.realign ∧
    (s.modAs e f).clk.factor = s.clk.factor ∧ (s.modAs e f).clk.cntPend = s.clk.cntPend := by
  and_intros <;> rfl

@[simp] theorem State.modAs_at (s : State) (e : Fin 4) (f : AsSyn → AsSyn) :
    (s.modAs e f).clk.asn = vmod s.clk.asn e f := rfl

end Sys2Proof.Machine
end

