-- ==== Sys2Proof/Laws/Ops.lean ====
section
/-! SUPPORT. What the shared operations of Ops.lean and Flags.lean can do: reading an entry of a changed vector, and what an
event, a response, a counter and the end of a meaning leave alone. -/
namespace Sys2Proof.Machine
open Sys2Proof

/-! ### Vectors -/

@[simp] theorem vmod_getElem (v : Vector α n) (i : Fin n) (f : α → α) (j : Nat) (h : j < n) :
    (vmod v i f)[j] = if i.val = j then f v[j] else v[j] := by
  simp only [vmod, Vector.getElem_set]
  split
  · rename_i e; subst e; rfl
  · rfl

theorem vmod_ne (v : Vector α n) (i j : Fin n) (f : α → α) (h : j ≠ i) : (vmod v i f)[j] = v[j] := by
  have h' : i.val ≠ j.val := fun e => h (Fin.ext e.symm)
  simp [h']

@[simp] theorem vmap_getElem (f : α → β) (v : Vector α n) (j : Nat) (h : j < n) : (vmap f v)[j] = f v[j] := by
  simp [vmap]

@[simp] theorem vof_getElem (f : Fin n → α) (j : Nat) (h : j < n) : (vof f)[j] = f ⟨j, h⟩ := by
  simp [vof]

@[simp] theorem vmod_vmod (v : Vector α n) (i : Fin n) (f g : α → α) : vmod (vmod v i f) i g = vmod v i (fun x => g (f x)) := by
  simp [vmod]

/-! ### Events, interrupts, responses -/

@[simp] theorem queueEvent_frame (m : Msg) (s : State) :
    (queueEvent m s).clk = s.clk ∧ (queueEvent m s).sup = s.sup ∧ (queueEvent m s).boot = s.boot ∧
    (queueEvent m s).host = s.host ∧ (queueEvent m s).fw.started = s.fw.started ∧
    (queueEvent m s).fw.evSeq = s.fw.evSeq ∧ (queueEvent m s).fw.allOff = s.fw.allOff ∧
    (queueEvent m s).fw.evExc = s.fw.evExc ∧ (queueEvent m s).fw.drop0 = s.fw.drop0 ∧
    (queueEvent m s).fw.drop3 = s.fw.drop3 ∧ (queueEvent m s).fw.handle = s.fw.handle ∧
    (queueEvent m s).fw.outHandle = s.fw.outHandle ∧ (queueEvent m s).fw.kaInt = s.fw.kaInt ∧
    (queueEvent m s).fw.kaQuiet = s.fw.kaQuiet ∧ (queueEvent m s).fw.kaLapsed = s.fw.kaLapsed ∧
    (queueEvent m s).fw.sched = s.fw.sched ∧ (queueEvent m s).fw.heldTune = s.fw.heldTune ∧
    (queueEvent m s).fw.zone = s.fw.zone ∧ (queueEvent m s).fw.twinOn = s.fw.twinOn ∧
    (queueEvent m s).fw.raise = s.fw.raise ∧ (queueEvent m s).fw.restartOn = s.fw.restartOn ∧
    (queueEvent m s).fw.migrHours = s.fw.migrHours ∧ (queueEvent m s).fw.migrNext = s.fw.migrNext ∧
    (queueEvent m s).fw.bulkOut = s.fw.bulkOut ∧ (queueEvent m s).fw.mirrorWait = s.fw.mirrorWait ∧
    (queueEvent m s).fw.line = s.fw.line ∧ (queueEvent m s).fw.clamped = s.fw.clamped ∧
    (queueEvent m s).eng = s.eng ∧ (queueEvent m s).tile = s.tile ∧ (queueEvent m s).grp = s.grp ∧
    (queueEvent m s).mtx = s.mtx ∧ (queueEvent m s).gen = s.gen ∧ (queueEvent m s).sad = s.sad ∧
    (queueEvent m s).port = s.port ∧ (queueEvent m s).mic = s.mic ∧ (queueEvent m s).pcd = s.pcd ∧
    (queueEvent m s).link = s.link ∧ (queueEvent m s).peri = s.peri ∧ (queueEvent m s).free = s.free ∧
    (queueEvent m s).pending = s.pending := by
  unfold queueEvent
  split <;> simp

@[simp] theorem raise_frame (code : Nat) (pl : List Word) (s : State) :
    (raise code pl s).clk = s.clk ∧ (raise code pl s).sup = s.sup ∧ (raise code pl s).boot = s.boot ∧
    (raise code pl s).host = s.host ∧ (raise code pl s).fw.started = s.fw.started ∧
    (raise code pl s).fw.evSeq = s.fw.evSeq ∧ (raise code pl s).fw.allOff = s.fw.allOff ∧
    (raise code pl s).fw.evExc = s.fw.evExc ∧ (raise code pl s).fw.drop0 = s.fw.drop0 ∧
    (raise code pl s).fw.drop3 = s.fw.drop3 ∧ (raise code pl s).fw.handle = s.fw.handle ∧
    (raise code pl s).fw.outHandle = s.fw.outHandle ∧ (raise code pl s).fw.kaInt = s.fw.kaInt ∧
    (raise code pl s).fw.kaQuiet = s.fw.kaQuiet ∧ (raise code pl s).fw.kaLapsed = s.fw.kaLapsed ∧
    (raise code pl s).fw.sched = s.fw.sched ∧ (raise code pl s).fw.heldTune = s.fw.heldTune ∧
    (raise code pl s).fw.zone = s.fw.zone ∧ (raise code pl s).fw.twinOn = s.fw.twinOn ∧
    (raise code pl s).fw.raise = s.fw.raise ∧ (raise code pl s).fw.restartOn = s.fw.restartOn ∧
    (raise code pl s).fw.migrHours = s.fw.migrHours ∧ (raise code pl s).fw.migrNext = s.fw.migrNext ∧
    (raise code pl s).fw.bulkOut = s.fw.bulkOut ∧ (raise code pl s).fw.mirrorWait = s.fw.mirrorWait ∧
    (raise code pl s).fw.line = s.fw.line ∧ (raise code pl s).fw.clamped = s.fw.clamped ∧
    (raise code pl s).eng = s.eng ∧ (raise code pl s).tile = s.tile ∧ (raise code pl s).grp = s.grp ∧
    (raise code pl s).mtx = s.mtx ∧ (raise code pl s).gen = s.gen ∧ (raise code pl s).sad = s.sad ∧
    (raise code pl s).port = s.port ∧ (raise code pl s).mic = s.mic ∧ (raise code pl s).pcd = s.pcd ∧
    (raise code pl s).link = s.link ∧ (raise code pl s).peri = s.peri ∧ (raise code pl s).free = s.free ∧
    (raise code pl s).pending = s.pending := by
  unfold raise
  split <;> simp

@[simp] theorem cntSat_frame (id old new : Word) (s : State) :
    (cntSat id old new s).clk = s.clk ∧ (cntSat id old new s).sup = s.sup ∧ (cntSat id old new s).boot = s.boot ∧
    (cntSat id old new s).host = s.host ∧ (cntSat id old new s).fw.started = s.fw.started ∧
    (cntSat id old new s).fw.evSeq = s.fw.evSeq ∧ (cntSat id old new s).fw.allOff = s.fw.allOff ∧
    (cntSat id old new s).fw.evExc = s.fw.evExc ∧ (cntSat id old new s).fw.drop0 = s.fw.drop0 ∧
    (cntSat id old new s).fw.drop3 = s.fw.drop3 ∧ (cntSat id old new s).fw.handle = s.fw.handle ∧
    (cntSat id old new s).fw.outHandle = s.fw.outHandle ∧ (cntSat id old new s).fw.kaInt = s.fw.kaInt ∧
    (cntSat id old new s).fw.kaQuiet = s.fw.kaQuiet ∧ (cntSat id old new s).fw.kaLapsed = s.fw.kaLapsed ∧
    (cntSat id old new s).fw.sched = s.fw.sched ∧ (cntSat id old new s).fw.heldTune = s.fw.heldTune ∧
    (cntSat id old new s).fw.zone = s.fw.zone ∧ (cntSat id old new s).fw.twinOn = s.fw.twinOn ∧
    (cntSat id old new s).fw.raise = s.fw.raise ∧ (cntSat id old new s).fw.restartOn = s.fw.restartOn ∧
    (cntSat id old new s).fw.migrHours = s.fw.migrHours ∧ (cntSat id old new s).fw.migrNext = s.fw.migrNext ∧
    (cntSat id old new s).fw.bulkOut = s.fw.bulkOut ∧ (cntSat id old new s).fw.mirrorWait = s.fw.mirrorWait ∧
    (cntSat id old new s).fw.line = s.fw.line ∧ (cntSat id old new s).fw.clamped = s.fw.clamped ∧
    (cntSat id old new s).eng = s.eng ∧ (cntSat id old new s).tile = s.tile ∧ (cntSat id old new s).grp = s.grp ∧
    (cntSat id old new s).mtx = s.mtx ∧ (cntSat id old new s).gen = s.gen ∧ (cntSat id old new s).sad = s.sad ∧
    (cntSat id old new s).port = s.port ∧ (cntSat id old new s).mic = s.mic ∧ (cntSat id old new s).pcd = s.pcd ∧
    (cntSat id old new s).link = s.link ∧ (cntSat id old new s).peri = s.peri ∧ (cntSat id old new s).free = s.free ∧
    (cntSat id old new s).pending = s.pending := by
  unfold cntSat
  split <;> simp

@[simp] theorem intset_frame (i : Nat) (s : State) :
    (intset i s).clk = s.clk ∧ (intset i s).sup = s.sup ∧ (intset i s).boot = s.boot ∧
    (intset i s).host.ready = s.host.ready ∧ (intset i s).host.badcmd = s.host.badcmd ∧
    (intset i s).host.addrOvr = s.host.addrOvr ∧ (intset i s).host.cfgerr = s.host.cfgerr ∧
    (intset i s).host.sysHi = s.host.sysHi ∧ (intset i s).host.tickLat = s.host.tickLat ∧
    (intset i s).host.frameLat = s.host.frameLat ∧ (intset i s).host.inten = s.host.inten ∧
    (intset i s).host.scratch = s.host.scratch ∧ (intset i s).host.resp = s.host.resp ∧ (intset i s).host.hdo = s.host.hdo ∧
    (intset i s).host.mbi = s.host.mbi ∧ (intset i s).host.mbo = s.host.mbo ∧ (intset i s).fw = s.fw ∧
    (intset i s).eng = s.eng ∧ (intset i s).tile = s.tile ∧ (intset i s).grp = s.grp ∧ (intset i s).mtx = s.mtx ∧
    (intset i s).gen = s.gen ∧ (intset i s).sad = s.sad ∧ (intset i s).port = s.port ∧ (intset i s).mic = s.mic ∧
    (intset i s).pcd = s.pcd ∧ (intset i s).link = s.link ∧ (intset i s).peri = s.peri ∧ (intset i s).free = s.free ∧
    (intset i s).pending = s.pending := by
  simp [intset]

@[simp] theorem refresh_frame (s : State) :
    (refresh s).clk = s.clk ∧ (refresh s).sup.quiet = s.sup.quiet ∧ (refresh s).sup.capoHRun = s.sup.capoHRun ∧
    (refresh s).sup.capoSRun = s.sup.capoSRun ∧ (refresh s).sup.pcdReleased = s.sup.pcdReleased ∧
    (refresh s).sup.engRun = s.sup.engRun ∧ (refresh s).sup.resetCause = s.sup.resetCause ∧
    (refresh s).sup.restarting = s.sup.restarting ∧ (refresh s).boot = s.boot ∧ (refresh s).host.ready = s.host.ready ∧
    (refresh s).host.badcmd = s.host.badcmd ∧ (refresh s).host.addrOvr = s.host.addrOvr ∧
    (refresh s).host.cfgerr = s.host.cfgerr ∧ (refresh s).host.sysHi = s.host.sysHi ∧
    (refresh s).host.tickLat = s.host.tickLat ∧ (refresh s).host.frameLat = s.host.frameLat ∧
    (refresh s).host.inten = s.host.inten ∧ (refresh s).host.scratch = s.host.scratch ∧
    (refresh s).host.resp = s.host.resp ∧ (refresh s).host.hdo = s.host.hdo ∧ (refresh s).host.mbi = s.host.mbi ∧
    (refresh s).host.mbo = s.host.mbo ∧ (refresh s).fw = s.fw ∧ (refresh s).eng = s.eng ∧ (refresh s).tile = s.tile ∧
    (refresh s).grp = s.grp ∧ (refresh s).mtx = s.mtx ∧ (refresh s).gen = s.gen ∧ (refresh s).sad = s.sad ∧
    (refresh s).port = s.port ∧ (refresh s).mic = s.mic ∧ (refresh s).pcd = s.pcd ∧ (refresh s).link = s.link ∧
    (refresh s).peri = s.peri ∧ (refresh s).free = s.free ∧ (refresh s).pending = s.pending := by
  unfold refresh
  split <;> simp

@[simp] theorem flushLine_frame (s : State) :
    (flushLine s).clk = s.clk ∧ (flushLine s).sup = s.sup ∧
    (flushLine s).boot = s.boot ∧ (flushLine s).host = s.host ∧
    (flushLine s).fw.started = s.fw.started ∧ (flushLine s).fw.evSeq = s.fw.evSeq ∧
    (flushLine s).fw.allOff = s.fw.allOff ∧ (flushLine s).fw.evExc = s.fw.evExc ∧
    (flushLine s).fw.loss = s.fw.loss ∧ (flushLine s).fw.drop0 = s.fw.drop0 ∧
    (flushLine s).fw.drop3 = s.fw.drop3 ∧ (flushLine s).fw.lostHeld = s.fw.lostHeld ∧
    (flushLine s).fw.handle = s.fw.handle ∧ (flushLine s).fw.outHandle = s.fw.outHandle ∧
    (flushLine s).fw.kaInt = s.fw.kaInt ∧ (flushLine s).fw.kaQuiet = s.fw.kaQuiet ∧
    (flushLine s).fw.kaLapsed = s.fw.kaLapsed ∧ (flushLine s).fw.sched = s.fw.sched ∧
    (flushLine s).fw.heldTune = s.fw.heldTune ∧ (flushLine s).fw.zone = s.fw.zone ∧
    (flushLine s).fw.twinOn = s.fw.twinOn ∧ (flushLine s).fw.raise = s.fw.raise ∧
    (flushLine s).fw.restartOn = s.fw.restartOn ∧
    (flushLine s).fw.migrHours = s.fw.migrHours ∧ (flushLine s).fw.migrNext = s.fw.migrNext ∧
    (flushLine s).fw.bulkOut = s.fw.bulkOut ∧ (flushLine s).eng = s.eng ∧
    (flushLine s).tile = s.tile ∧ (flushLine s).grp = s.grp ∧
    (flushLine s).mtx = s.mtx ∧ (flushLine s).gen = s.gen ∧
    (flushLine s).sad = s.sad ∧ (flushLine s).port = s.port ∧
    (flushLine s).mic = s.mic ∧ (flushLine s).pcd = s.pcd ∧
    (flushLine s).link = s.link ∧ (flushLine s).peri = s.peri ∧
    (flushLine s).free = s.free ∧ (flushLine s).pending = s.pending := by
  simp [flushLine]

@[simp] theorem queueReply_frame (p : Option (Fin 32)) (m : Msg) (s : State) :
    (queueReply p m s).clk = s.clk ∧ (queueReply p m s).sup = s.sup ∧
    (queueReply p m s).boot = s.boot ∧ (queueReply p m s).host = s.host ∧
    (queueReply p m s).fw.started = s.fw.started ∧ (queueReply p m s).fw.evSeq = s.fw.evSeq ∧
    (queueReply p m s).fw.allOff = s.fw.allOff ∧ (queueReply p m s).fw.evExc = s.fw.evExc ∧
    (queueReply p m s).fw.loss = s.fw.loss ∧ (queueReply p m s).fw.drop0 = s.fw.drop0 ∧
    (queueReply p m s).fw.drop3 = s.fw.drop3 ∧ (queueReply p m s).fw.lostHeld = s.fw.lostHeld ∧
    (queueReply p m s).fw.handle = s.fw.handle ∧ (queueReply p m s).fw.outHandle = s.fw.outHandle ∧
    (queueReply p m s).fw.kaInt = s.fw.kaInt ∧ (queueReply p m s).fw.kaQuiet = s.fw.kaQuiet ∧
    (queueReply p m s).fw.kaLapsed = s.fw.kaLapsed ∧ (queueReply p m s).fw.sched = s.fw.sched ∧
    (queueReply p m s).fw.heldTune = s.fw.heldTune ∧ (queueReply p m s).fw.zone = s.fw.zone ∧
    (queueReply p m s).fw.twinOn = s.fw.twinOn ∧ (queueReply p m s).fw.raise = s.fw.raise ∧
    (queueReply p m s).fw.restartOn = s.fw.restartOn ∧
    (queueReply p m s).fw.migrHours = s.fw.migrHours ∧ (queueReply p m s).fw.migrNext = s.fw.migrNext ∧
    (queueReply p m s).fw.bulkOut = s.fw.bulkOut ∧ (queueReply p m s).eng = s.eng ∧
    (queueReply p m s).tile = s.tile ∧ (queueReply p m s).grp = s.grp ∧
    (queueReply p m s).mtx = s.mtx ∧ (queueReply p m s).gen = s.gen ∧
    (queueReply p m s).sad = s.sad ∧ (queueReply p m s).port = s.port ∧
    (queueReply p m s).mic = s.mic ∧ (queueReply p m s).pcd = s.pcd ∧
    (queueReply p m s).link = s.link ∧ (queueReply p m s).peri = s.peri ∧
    (queueReply p m s).free = s.free ∧ (queueReply p m s).pending = s.pending := by
  simp only [queueReply]
  split <;> (try split) <;> (try split) <;> simp

@[simp] theorem awaitOwn_frame (m : Msg) (s : State) :
    (awaitOwn m s).clk = s.clk ∧ (awaitOwn m s).sup = s.sup ∧
    (awaitOwn m s).boot = s.boot ∧ (awaitOwn m s).host = s.host ∧
    (awaitOwn m s).fw.started = s.fw.started ∧ (awaitOwn m s).fw.evSeq = s.fw.evSeq ∧
    (awaitOwn m s).fw.allOff = s.fw.allOff ∧ (awaitOwn m s).fw.evExc = s.fw.evExc ∧
    (awaitOwn m s).fw.loss = s.fw.loss ∧ (awaitOwn m s).fw.drop0 = s.fw.drop0 ∧
    (awaitOwn m s).fw.drop3 = s.fw.drop3 ∧ (awaitOwn m s).fw.lostHeld = s.fw.lostHeld ∧
    (awaitOwn m s).fw.handle = s.fw.handle ∧ (awaitOwn m s).fw.outHandle = s.fw.outHandle ∧
    (awaitOwn m s).fw.kaInt = s.fw.kaInt ∧ (awaitOwn m s).fw.kaQuiet = s.fw.kaQuiet ∧
    (awaitOwn m s).fw.kaLapsed = s.fw.kaLapsed ∧ (awaitOwn m s).fw.sched = s.fw.sched ∧
    (awaitOwn m s).fw.heldTune = s.fw.heldTune ∧ (awaitOwn m s).fw.zone = s.fw.zone ∧
    (awaitOwn m s).fw.twinOn = s.fw.twinOn ∧ (awaitOwn m s).fw.raise = s.fw.raise ∧
    (awaitOwn m s).fw.restartOn = s.fw.restartOn ∧
    (awaitOwn m s).fw.migrHours = s.fw.migrHours ∧ (awaitOwn m s).fw.migrNext = s.fw.migrNext ∧
    (awaitOwn m s).fw.bulkOut = s.fw.bulkOut ∧ (awaitOwn m s).eng = s.eng ∧
    (awaitOwn m s).tile = s.tile ∧ (awaitOwn m s).grp = s.grp ∧
    (awaitOwn m s).mtx = s.mtx ∧ (awaitOwn m s).gen = s.gen ∧
    (awaitOwn m s).sad = s.sad ∧ (awaitOwn m s).port = s.port ∧
    (awaitOwn m s).mic = s.mic ∧ (awaitOwn m s).pcd = s.pcd ∧
    (awaitOwn m s).link = s.link ∧ (awaitOwn m s).peri = s.peri ∧
    (awaitOwn m s).free = s.free ∧ (awaitOwn m s).pending = s.pending := by
  unfold awaitOwn
  split <;> simp [await]

@[simp] theorem respond_frame (m : Msg) (status info : Nat) (ws : List Word) (s : State) :
    (respond m status info ws s).clk = s.clk ∧ (respond m status info ws s).sup = s.sup ∧
    (respond m status info ws s).boot = s.boot ∧ (respond m status info ws s).host = s.host ∧
    (respond m status info ws s).fw.started = s.fw.started ∧ (respond m status info ws s).fw.evSeq = s.fw.evSeq ∧
    (respond m status info ws s).fw.allOff = s.fw.allOff ∧ (respond m status info ws s).fw.evExc = s.fw.evExc ∧
    (respond m status info ws s).fw.loss = s.fw.loss ∧ (respond m status info ws s).fw.drop0 = s.fw.drop0 ∧
    (respond m status info ws s).fw.drop3 = s.fw.drop3 ∧ (respond m status info ws s).fw.lostHeld = s.fw.lostHeld ∧
    (respond m status info ws s).fw.handle = s.fw.handle ∧ (respond m status info ws s).fw.outHandle = s.fw.outHandle ∧
    (respond m status info ws s).fw.kaInt = s.fw.kaInt ∧ (respond m status info ws s).fw.kaQuiet = s.fw.kaQuiet ∧
    (respond m status info ws s).fw.kaLapsed = s.fw.kaLapsed ∧ (respond m status info ws s).fw.sched = s.fw.sched ∧
    (respond m status info ws s).fw.heldTune = s.fw.heldTune ∧ (respond m status info ws s).fw.zone = s.fw.zone ∧
    (respond m status info ws s).fw.twinOn = s.fw.twinOn ∧ (respond m status info ws s).fw.raise = s.fw.raise ∧
    (respond m status info ws s).fw.restartOn = s.fw.restartOn ∧
    (respond m status info ws s).fw.migrHours = s.fw.migrHours ∧ (respond m status info ws s).fw.migrNext = s.fw.migrNext ∧
    (respond m status info ws s).fw.bulkOut = s.fw.bulkOut ∧ (respond m status info ws s).eng = s.eng ∧
    (respond m status info ws s).tile = s.tile ∧ (respond m status info ws s).grp = s.grp ∧
    (respond m status info ws s).mtx = s.mtx ∧ (respond m status info ws s).gen = s.gen ∧
    (respond m status info ws s).sad = s.sad ∧ (respond m status info ws s).port = s.port ∧
    (respond m status info ws s).mic = s.mic ∧ (respond m status info ws s).pcd = s.pcd ∧
    (respond m status info ws s).link = s.link ∧ (respond m status info ws s).peri = s.peri ∧
    (respond m status info ws s).free = s.free ∧ (respond m status info ws s).pending = s.pending := by
  unfold respond
  split <;> simp

/-- STAT shows its code after every meaning that ends in done. -/
theorem refresh_stat (s : State) : (refresh s).sup.stat = s.statCode := by
  unfold refresh
  split
  · exact (‹s.statCode = s.sup.stat›).symm
  · rfl

/-- The code that STAT shows depends on neither STAT nor the host port, but for a sleeping device. -/
theorem refresh_statCode (s : State) : (refresh s).statCode = s.statCode := by
  unfold refresh
  split
  · rfl
  · have key : ∀ x, (intset 0 { s with sup.stat := x } : State).runCode = s.runCode := fun _ => rfl
    have hb : ∀ x, (intset 0 { s with sup.stat := x } : State).boot = s.boot := fun _ => rfl
    have hf : ∀ x, (intset 0 { s with sup.stat := x } : State).fw = s.fw := fun _ => rfl
    unfold State.statCode
    rw [key, hb, hf]
    cases hq : s.boot.phase <;> rfl

/-! ### The error flags of the host port -/

/-- A sticky flag that rises sets HOSTERR; one that stood changes nothing (R476). -/
theorem hostErr_eq (old : Bool) (s : State) :
    hostErr old s = { s with host.intsrc := if old then s.host.intsrc else s.host.intsrc ||| 4 } := by
  cases old <;> rfl

end Sys2Proof.Machine
end

