-- ==== Sys2Proof/Laws/Frame.lean ====
section
/-! SUPPORT. Frames: which parts of the state each shared operation leaves alone. A meaning's frame is the chain of these. -/
namespace Sys2Proof.Machine
open Sys2Proof

theorem SameAt.refl (s : State) (p : Part) : SameAt s s p := by
  cases p <;> simp [SameAt]

theorem SameAt.trans {s t u : State} {p : Part} (h : SameAt s t p) (k : SameAt t u p) : SameAt s u p := by
  cases p
  case sup =>
    simp only [SameAt] at *
    rw [← h, ← k]
  case fw =>
    simp only [SameAt] at *
    rw [← h, ← k]
  all_goals simp only [SameAt] at *; simp_all

theorem Outside.refl (l : List Part) (s : State) : Outside l s s := fun p _ => SameAt.refl s p

theorem Outside.trans {l : List Part} {s t u : State} (h : Outside l s t) (k : Outside l t u) : Outside l s u :=
  fun p hp => (h p hp).trans (k p hp)

theorem Outside.mono {l k : List Part} {s t : State} (h : Outside l s t) (hs : ∀ p ∈ l, p ∈ k) : Outside k s t :=
  fun p hp => h p (fun hl => hp (hs p hl))

/-- A fold leaves alone what each of its steps leaves alone. -/
theorem Outside.foldl {l : List Part} (f : State → α → State) (hf : ∀ s a, Outside l s (f s a)) (as : List α) :
    ∀ s, Outside l s (as.foldl f s) := by
  induction as with
  | nil => exact fun s => .refl l s
  | cons a as ih => exact fun s => (hf s a).trans (ih _)

theorem Outside.forIdx {l : List Part} (f : Fin n → State → State) (hf : ∀ s i, Outside l s (f i s)) (s : State) :
    Outside l s (forIdx n f s) := Outside.foldl _ (fun s i => hf s i) _ s

theorem outside_modEng (s : State) (i : EngId) (f : Engine → Engine) : Outside [.eng] s (s.modEng i f) := by
  intro p hp; cases p <;> first | exact rfl | (simp only [SameAt]; and_intros <;> rfl) | simp at hp

theorem outside_modGrp (s : State) (i : GrpId) (f : Group → Group) : Outside [.grp] s (s.modGrp i f) := by
  intro p hp; cases p <;> first | exact rfl | (simp only [SameAt]; and_intros <;> rfl) | simp at hp

theorem outside_modTile (s : State) (i : TileId) (f : TileMem → TileMem) : Outside [.tile] s (s.modTile i f) := by
  intro p hp; cases p <;> first | exact rfl | (simp only [SameAt]; and_intros <;> rfl) | simp at hp

theorem outside_modGen (s : State) (i : GenId) (f : Gen → Gen) : Outside [.gen] s (s.modGen i f) := by
  intro p hp; cases p <;> first | exact rfl | (simp only [SameAt]; and_intros <;> rfl) | simp at hp

theorem outside_modSad (s : State) (i : SadId) (f : Saddle → Saddle) : Outside [.sad] s (s.modSad i f) := by
  intro p hp; cases p <;> first | exact rfl | (simp only [SameAt]; and_intros <;> rfl) | simp at hp

theorem outside_modPort (s : State) (i : PortId) (f : Port → Port) : Outside [.port] s (s.modPort i f) := by
  intro p hp; cases p <;> first | exact rfl | (simp only [SameAt]; and_intros <;> rfl) | simp at hp

theorem outside_modMic (s : State) (i : MicId) (f : Mic → Mic) : Outside [.mic] s (s.modMic i f) := by
  intro p hp; cases p <;> first | exact rfl | (simp only [SameAt]; and_intros <;> rfl) | simp at hp

theorem outside_modCh (s : State) (i : ChanId) (f : Chan → Chan) : Outside [.pcd] s (s.modCh i f) := by
  intro p hp; cases p <;> first | exact rfl | (simp only [SameAt]; and_intros <;> rfl) | simp at hp

theorem outside_modRail (s : State) (i : RailId) (f : Rail → Rail) : Outside [.pcd] s (s.modRail i f) := by
  intro p hp; cases p <;> first | exact rfl | (simp only [SameAt]; and_intros <;> rfl) | simp at hp

theorem outside_modCol (s : State) (i : Fin 256) (f : Col → Col) : Outside [.mtx] s (s.modCol i f) := by
  intro p hp; cases p <;> first | exact rfl | (simp only [SameAt]; and_intros <;> rfl) | simp at hp

theorem outside_modRPort (s : State) (i : RidgeId) (f : RPort → RPort) : Outside [.link] s (s.modRPort i f) := by
  intro p hp; cases p <;> first | exact rfl | (simp only [SameAt]; and_intros <;> rfl) | simp at hp

theorem outside_modMbi (s : State) (i : BoxId) (f : Mbi → Mbi) : Outside [.mbi] s (s.modMbi i f) := by
  intro p hp; cases p <;> first | exact rfl | (simp only [SameAt]; and_intros <;> rfl) | simp at hp

theorem outside_modMbo (s : State) (i : BoxId) (f : Mbo → Mbo) : Outside [.mbo] s (s.modMbo i f) := by
  intro p hp; cases p <;> first | exact rfl | (simp only [SameAt]; and_intros <;> rfl) | simp at hp

theorem outside_modZone (s : State) (i : ZoneId) (f : Zone → Zone) : Outside [.fw] s (s.modZone i f) := by
  intro p hp; cases p <;> first | exact rfl | (simp only [SameAt]; and_intros <;> rfl) | simp at hp

theorem outside_modOut (s : State) (i : Fin 8) (f : ClkOut → ClkOut) : Outside [.clk] s (s.modOut i f) := by
  intro p hp; cases p <;> first | exact rfl | (simp only [SameAt]; and_intros <;> rfl) | simp at hp

theorem outside_modAs (s : State) (i : Fin 4) (f : AsSyn → AsSyn) : Outside [.clk] s (s.modAs i f) := by
  intro p hp; cases p <;> first | exact rfl | (simp only [SameAt]; and_intros <;> rfl) | simp at hp

theorem outside_modQ (s : State) (i : BoxId) (f : List Msg → List Msg) : Outside [.resp, .events] s (s.modQ i f) := by
  intro p hp; cases p <;> first | exact rfl | (simp only [SameAt]; and_intros <;> rfl) | simp at hp

/-- A change of the queue of MBO2 is one of the events. -/
theorem outside_modQ2 (s : State) (f : List Msg → List Msg) : Outside [.events] s (s.modQ 2 f) := by
  intro p hp
  cases p
  case resp => simp [SameAt]
  all_goals first | exact rfl | (simp only [SameAt]; and_intros <;> rfl) | simp at hp

/-- A change of the queue of MBO0 is a response. -/
theorem outside_modQ0 (s : State) (f : List Msg → List Msg) : Outside [.resp] s (s.modQ 0 f) := by
  intro p hp
  cases p
  case events => simp [SameAt]
  all_goals first | exact rfl | (simp only [SameAt]; and_intros <;> rfl) | simp at hp

theorem outside_intset (i : Nat) (s : State) : Outside [] s (intset i s) := by
  intro p hp; cases p <;> first | exact rfl | (simp only [SameAt]; and_intros <;> rfl)

theorem outside_refresh (s : State) : Outside [] s (refresh s) := by
  unfold refresh
  split
  · exact .refl _ s
  · intro p hp; cases p <;> first | exact rfl | (simp only [SameAt]; and_intros <;> rfl)

theorem outside_queueEvent (m : Msg) (s : State) : Outside [.events] s (queueEvent m s) := by
  unfold queueEvent
  split
  · exact outside_modQ2 _ _
  · intro p hp; cases p <;> first | exact rfl | (simp only [SameAt, and_self]; done) | simp at hp

theorem outside_raise (code : Nat) (pl : List Word) (s : State) : Outside [.events] s (raise code pl s) := by
  unfold raise
  split
  · exact outside_queueEvent _ _
  · exact .refl _ s

theorem outside_cntSat (id old new : Word) (s : State) : Outside [.events] s (cntSat id old new s) := by
  unfold cntSat
  split
  · exact outside_raise _ _ _
  · exact .refl _ s

/-- The places kept for responses, and those that the standby holds back, are part of the responses. -/
theorem outside_line (s : State) (l : List Turn) : Outside [.resp] s { s with fw.line := l } := by
  intro p hp; cases p <;> first | exact rfl | (simp only [SameAt, and_self]; done) | simp at hp

theorem outside_mirrorWait (s : State) (l : List (BitVec 12 × Msg)) : Outside [.resp] s { s with fw.mirrorWait := l } := by
  intro p hp; cases p <;> first | exact rfl | (simp only [SameAt, and_self]; done) | simp at hp

theorem outside_flushLine (s : State) : Outside [.resp] s (flushLine s) := (outside_line s _).trans (outside_modQ0 _ _)

theorem outside_queueReply (q : Option (Fin 32)) (m : Msg) (s : State) : Outside [.resp, .events] s (queueReply q m s) := by
  have hw : ∀ {t : State}, Outside [.resp] s t → Outside [.resp, .events] s t := fun h => h.mono (by simp)
  simp only [queueReply]
  split
  · exact outside_modQ _ _ _
  · split
    · exact hw ((outside_line s _).trans (outside_flushLine _))
    · split
      · exact hw (outside_modQ0 _ _)
      · exact hw (outside_line s _)

theorem outside_awaitOwn (m : Msg) (s : State) : Outside [.resp] s (awaitOwn m s) := by
  unfold awaitOwn
  split
  · exact outside_line s _
  · exact .refl _ s

theorem outside_respond (m : Msg) (status info : Nat) (ws : List Word) (s : State) :
    Outside [.resp, .events] s (respond m status info ws s) := by
  unfold respond
  split
  · exact Outside.mono (l := [.resp]) ((outside_awaitOwn m s).trans (outside_mirrorWait _ _)) (by simp)
  · exact outside_queueReply _ _ _

end Sys2Proof.Machine
end

