-- ==== Sys2Proof/Laws/Cmd.lean ====
section
/-! SUPPORT. What a firmware command does when nothing stops it: the shared path through R375, once for every row of Tables 14.5
to 14.9. -/
namespace Sys2Proof.Machine
open Sys2Proof

theorem fTail_none {k : Nat} {m : Msg} (h : ∀ i, k ≤ i → i < m.len.toNat → mword m i = 0) : fTail k m = none := by
  unfold fTail
  have : ∀ l : List Nat, firstOf (l.map fun i => if k ≤ i ∧ i < m.len.toNat then fZero i 0 32 m else none) = none := by
    intro l
    induction l with
    | nil => rfl
    | cons i l ih =>
      simp only [List.map_cons]
      split
      · rename_i hi
        have hz : fZero i 0 32 m = none := by simp [fZero, need, mfld, fld, h i hi.1 hi.2]
        rw [hz]; exact ih
      · exact ih
  exact this _

/-- The checks of the header pass for a request. -/
theorem Request.entry {code len tail : Nat} {m : Msg} {s : State} (c : Cmd) (r : Request code len tail m s)
    (hl : c.len m ≤ m.len.toNat) : entryFail c m = none := by
  have hd : ∀ i n, 24 ≤ i → i + n ≤ 32 → fld m.w[0] i n = 0 := by
    intro i n h1 h2
    have h := r.head
    simp only [fld, Nat.shiftRight_eq_div_pow] at h ⊢
    have hx : m.w[0].toNat < 2 ^ 24 := by have := m.w[0].isLt; omega
    have : m.w[0].toNat / 2 ^ i = 0 := by
      apply Nat.div_eq_of_lt
      exact Nat.lt_of_lt_of_le hx (Nat.pow_le_pow_right (by decide) h1)
    rw [this]; simp
  have hb : ∀ i, 24 ≤ i → i < 32 → bit m.w[0] i = false := by
    intro i h1 h2
    have h := hd i 1 h1 (by omega)
    simp only [fld, Nat.shiftRight_eq_div_pow] at h
    simp only [bit, BitVec.getLsbD, Nat.testBit_eq_decide_div_mod_eq]
    simp only [decide_eq_false_iff_not]
    omega
  have hw : mword m 0 = m.w[0] := by simp [mword]
  simp [entryFail, firstOf, fZero, need, isAt, isFwd, mfld, hw, hd 24 1 (by decide) (by decide), hd 27 5 (by decide) (by decide),
    hb 25 (by decide) (by decide), hb 26 (by decide) (by decide), r.box, hl, r.w1]

theorem Request.plain {code len tail : Nat} {m : Msg} {s : State} (r : Request code len tail m s) :
    isAt m = false ∧ isFwd m = false := by
  have h := r.head
  simp only [fld, Nat.shiftRight_eq_div_pow] at h
  constructor <;> simp only [isAt, isFwd, bit, BitVec.getLsbD, Nat.testBit_eq_decide_div_mod_eq, decide_eq_false_iff_not] <;>
    omega

/-- A device that serves alone passes no command on to a twin. -/
theorem Serving.no_twin {s : State} (h : Serving s) (k : Nat) :
    (if twinned k then s.twinHere else none) = none := by
  rcases h.alone with ha | ⟨-, ht⟩
  · simp [State.twinHere, ha]
  · cases hp : s.link.pos with
    | none => simp [State.twinHere, hp]
    | some p => simp [State.twinHere, hp, ht p hp]

/-- A request whose own checks pass runs its act. -/
theorem row_served {len tail : Nat} {m : Msg} {s : State} (c : Cmd) (name : String) (hs : Serving s)
    (r : Request c.code len tail m s) (hl : c.len m ≤ m.len.toNat) (hc : c.check s m = none) :
    row c name m s = .next (refresh (c.act m none s)) := by
  have hg : gateFail c s = none := by simp [gateFail, hs.phase, State.serves, hs.started, hs.read, need]
  have hb : m.box ≠ 2 ∧ m.box ≠ 3 := by rw [r.box]; decide
  have hn : ¬ 32 ≤ s.queued m.box := by
    have := r.room
    have hq : s.fw.q[m.box] = s.fw.q[0] := by simp [r.box]
    simp [State.queued, hq, hs.answered]; omega
  simp only [row, ifWf, wfCmd, r.code, decide_true, if_true, done]
  congr 2
  simp only [arrive, hs.phase, hs.running, hb.1, hb.2, if_false]
  rw [if_pos (by decide)]
  simp only [hn, and_false, if_false]
  have hf : sendFail c m 1 true s = none := by simp [sendFail, need, r.plain.1]
  have hp : ∀ t, spreadHere c m t = t := by
    intro t
    have hn : frameOf m = none := by simp [frameOf, r.plain.1]
    simp only [spreadHere, hn]
    split <;> simp_all
  simp only [runCmd, firstOf, hg, r.entry c hl, r.plain.2, runHere, hc, atFail, r.plain.1, frameOf,
    hs.no_twin c.code, hf, hp, ite_self]
  rfl

theorem Serving.unmirrored {s : State} (h : Serving s) : s.link.active = false ∨ s.link.paired = false := by
  rcases h.alone with ha | ⟨hp, -⟩
  · exact .inl ha
  · exact .inr hp

/-- With no response waiting for an earlier one, a response stands last in its queue. -/
theorem queueReply_queue {m : Msg} {s : State} (h : s.fw.line = []) : queueReply none m s = s.modQ m.box (· ++ [m]) := by
  simp only [queueReply, h]
  by_cases hb : m.box = 0 <;> simp [hb]

@[simp] theorem answer_box (m : Msg) (st info : Nat) (ws : List Word) : (answer m st info ws).box = m.box := rfl

/-- The response of a serving device stands last in its queue. -/
theorem respond_queue {m : Msg} {s : State} (st info : Nat) (ws : List Word) (h : s.link.active = false ∨ s.link.paired = false)
    (hl : s.fw.line = []) : respond m st info ws s = s.modQ m.box (· ++ [answer m st info ws]) := by
  rcases h with h | h <;> simp [respond, h, queueReply_queue hl]

theorem ok_queue {m : Msg} {s : State} (ws : List Word) (h : s.link.active = false ∨ s.link.paired = false) (hl : s.fw.line = []) :
    ok m ws s = s.modQ m.box (· ++ [answer m 0 0 ws]) := respond_queue 0 0 ws h hl

end Sys2Proof.Machine
end

