-- ==== Sys2Proof/Laws/Mem.lean ====
section
/-! SUPPORT. The memory operations keep the canonical form, and a read after a write. -/
namespace Sys2Proof.Machine
open Sys2Proof

variable {w : Nat}

theorem Mem.wfFrom_mono (m : Mem w) (lo lo' : Nat) (h : lo' ≤ lo) (hm : Mem.wfFrom lo m = true) : Mem.wfFrom lo' m = true := by
  cases m with
  | nil => rfl
  | cons x r =>
    simp only [Mem.wfFrom, Bool.and_eq_true, decide_eq_true_eq] at hm ⊢
    exact ⟨⟨by omega, hm.1.2⟩, hm.2⟩

/-- A listed address below the first is not listed: it reads as zero. -/
theorem Mem.get_below (m : Mem w) (lo a : Nat) (h : a < lo) (hm : Mem.wfFrom lo m = true) : m.get a = 0 := by
  induction m generalizing lo with
  | nil => rfl
  | cons x r ih =>
    simp only [Mem.wfFrom, Bool.and_eq_true, decide_eq_true_eq] at hm
    have hx : a ≠ x.1 := by omega
    simp only [Mem.get, hx, if_false]
    exact ih (x.1 + 1) (by omega) hm.2

theorem Mem.set_wfFrom (m : Mem w) (lo a : Nat) (v : BitVec w) (h : lo ≤ a) (hm : Mem.wfFrom lo m = true) :
    Mem.wfFrom lo (m.set a v) = true := by
  induction m generalizing lo with
  | nil => unfold Mem.set; split <;> simp_all [Mem.wfFrom]
  | cons x r ih =>
    have hm' := hm
    simp only [Mem.wfFrom, Bool.and_eq_true, decide_eq_true_eq] at hm'
    obtain ⟨⟨h1, h2⟩, h3⟩ := hm'
    simp only [Mem.set]
    split
    · split
      · exact hm
      · simp only [Mem.wfFrom, Bool.and_eq_true, decide_eq_true_eq]
        exact ⟨⟨h, by assumption⟩, ⟨by omega, h2⟩, h3⟩
    · split
      · split
        · exact Mem.wfFrom_mono r (x.1 + 1) lo (by omega) h3
        · simp only [Mem.wfFrom, Bool.and_eq_true, decide_eq_true_eq]
          exact ⟨⟨h, by assumption⟩, by subst a; exact h3⟩
      · simp only [Mem.wfFrom, Bool.and_eq_true, decide_eq_true_eq]
        exact ⟨⟨h1, h2⟩, ih (x.1 + 1) (by omega) h3⟩

/-- A write keeps the canonical form. -/
theorem Mem.set_wf (m : Mem w) (a : Nat) (v : BitVec w) (hm : m.wf = true) : (m.set a v).wf = true :=
  Mem.set_wfFrom m 0 a v (by omega) hm

theorem Mem.get_set_from (m : Mem w) (lo a b : Nat) (v : BitVec w) (hm : Mem.wfFrom lo m = true) :
    (m.set a v).get b = if b = a then v else m.get b := by
  induction m generalizing lo with
  | nil =>
    unfold Mem.set
    by_cases hv : v = 0 <;> by_cases hb : b = a <;> simp only [hv, hb, if_true, if_false, Mem.get]
  | cons x r ih =>
    obtain ⟨y, u⟩ := x
    simp only [Mem.wfFrom, Bool.and_eq_true, decide_eq_true_eq] at hm
    obtain ⟨⟨_, _⟩, h3⟩ := hm
    have hz : ∀ k, k ≤ y → Mem.get r k = 0 := fun k hk => Mem.get_below r (y + 1) k (by omega) h3
    simp only [Mem.set]
    split
    · split
      · by_cases hb : b = a
        · subst hb; simp [Mem.get, show b ≠ y by omega, hz b (by omega), *]
        · simp [hb]
      · simp [Mem.get]
    · split
      · subst a
        split
        · by_cases hb : b = y
          · subst hb; simp [hz b (by omega), *]
          · simp [Mem.get, hb]
        · simp only [Mem.get]; split <;> rfl
      · simp only [Mem.get, ih (y + 1) h3]
        by_cases hb : b = y
        · subst hb; simp [show b ≠ a by omega]
        · simp [hb]

/-- A read after a write: the value written at its address, elsewhere what was there. -/
theorem Mem.get_set (m : Mem w) (a b : Nat) (v : BitVec w) (hm : m.wf = true) :
    (m.set a v).get b = if b = a then v else m.get b :=
  Mem.get_set_from m 0 a b v hm

theorem Mem.setMany_wf (m : Mem w) (a : Nat) (l : List (BitVec w)) (hm : m.wf = true) : (m.setMany a l).wf = true := by
  induction l generalizing m a with
  | nil => exact hm
  | cons x l ih => exact ih (m.set a x) (a + 1) (Mem.set_wf m a x hm)

/-- A read after a write of consecutive words. -/
theorem Mem.get_setMany (m : Mem w) (a b : Nat) (l : List (BitVec w)) (hm : m.wf = true) :
    (m.setMany a l).get b = if a ≤ b ∧ b < a + l.length then l.getD (b - a) 0 else m.get b := by
  induction l generalizing m a with
  | nil => simp [Mem.setMany, show ¬ (a ≤ b ∧ b < a) by omega]
  | cons x l ih =>
    rw [Mem.setMany, ih (m.set a x) (a + 1) (Mem.set_wf m a x hm), Mem.get_set m a b x hm, List.length_cons]
    by_cases h1 : b = a
    · subst h1; simp [show ¬ b + 1 ≤ b by omega]
    · by_cases h2 : a + 1 ≤ b ∧ b < a + 1 + l.length
      · rw [if_pos h2, if_pos (by omega), show b - a = (b - (a + 1)) + 1 by omega]; rfl
      · rw [if_neg h2, if_neg h1, if_neg (by omega)]

theorem Mem.keep_wfFrom (m : Mem w) (lo : Nat) (p : Nat → Bool) (hm : Mem.wfFrom lo m = true) :
    Mem.wfFrom lo (m.keep p) = true := by
  induction m generalizing lo with
  | nil => rfl
  | cons x r ih =>
    simp only [Mem.wfFrom, Bool.and_eq_true, decide_eq_true_eq] at hm
    obtain ⟨⟨h1, h2⟩, h3⟩ := hm
    have h := ih (x.1 + 1) h3
    by_cases hp : p x.1 = true
    · have e : Mem.keep (x :: r) p = x :: Mem.keep r p := by simp [Mem.keep, hp]
      rw [e]; simp only [Mem.wfFrom, Bool.and_eq_true, decide_eq_true_eq]
      exact ⟨⟨h1, h2⟩, h⟩
    · have e : Mem.keep (x :: r) p = Mem.keep r p := by simp [Mem.keep, hp]
      rw [e]; exact Mem.wfFrom_mono _ (x.1 + 1) lo (by omega) h

/-- Keeping some addresses keeps the canonical form. -/
theorem Mem.keep_wf (m : Mem w) (p : Nat → Bool) (hm : m.wf = true) : (m.keep p).wf = true := Mem.keep_wfFrom m 0 p hm

theorem Mem.get_keep (m : Mem w) (p : Nat → Bool) (b : Nat) (lo : Nat) (hm : Mem.wfFrom lo m = true) :
    (m.keep p).get b = if p b = true then m.get b else 0 := by
  induction m generalizing lo with
  | nil => simp [Mem.keep, Mem.get]
  | cons x r ih =>
    obtain ⟨y, u⟩ := x
    simp only [Mem.wfFrom, Bool.and_eq_true, decide_eq_true_eq] at hm
    have hz := Mem.get_below r (y + 1) y (by omega) hm.2
    by_cases hp : p y = true
    · have e : Mem.keep ((y, u) :: r) p = (y, u) :: Mem.keep r p := by simp [Mem.keep, hp]
      rw [e]; simp only [Mem.get, ih (y + 1) hm.2]
      by_cases hb : b = y
      · subst hb; simp [hp]
      · simp [hb]
    · have e : Mem.keep ((y, u) :: r) p = Mem.keep r p := by simp [Mem.keep, hp]
      rw [e, ih (y + 1) hm.2]; simp only [Mem.get]
      by_cases hb : b = y
      · subst hb; simp [hp]
      · simp [hb]

theorem Mem.clear_wf (m : Mem w) (a n : Nat) (hm : m.wf = true) : (m.clear a n).wf = true := Mem.keep_wf m _ hm

/-- Clearing a range reads as zero there, and elsewhere as before. -/
theorem Mem.get_clear (m : Mem w) (a n b : Nat) (hm : m.wf = true) :
    (m.clear a n).get b = if a ≤ b ∧ b < a + n then 0 else m.get b := by
  rw [Mem.clear, Mem.get_keep m _ b 0 hm]
  by_cases h : a ≤ b ∧ b < a + n
  · rw [if_pos h, if_neg (by simp; omega)]
  · rw [if_neg h, if_pos (by simp; omega)]

theorem memOf_wfFrom (l : List (BitVec w)) (k : Nat) :
    Mem.wfFrom k (((l.zipIdx k).filter fun x => decide (x.1 ≠ 0)).map fun x => (x.2, x.1)) = true := by
  induction l generalizing k with
  | nil => rfl
  | cons x l ih =>
    by_cases hx : x = 0
    · rw [List.zipIdx_cons, List.filter_cons, if_neg (by simp [hx])]
      exact Mem.wfFrom_mono _ (k + 1) k (by omega) (ih (k + 1))
    · rw [List.zipIdx_cons, List.filter_cons, if_pos (by simpa using hx)]
      simp only [List.map_cons, Mem.wfFrom, Bool.and_eq_true, decide_eq_true_eq]
      exact ⟨⟨Nat.le_refl k, hx⟩, ih (k + 1)⟩

/-- A list of words as a memory is in canonical form. -/
theorem memOf_wf (l : List (BitVec w)) : (memOf l).wf = true := memOf_wfFrom l 0

/-- A memory made by writing pairs is in canonical form, as the snapshot of the rows is. -/
theorem Mem.foldl_set_wf (l : List (Nat × BitVec w)) (m : Mem w) (hm : m.wf = true) :
    (l.foldl (fun m x => m.set x.1 x.2) m).wf = true := by
  induction l generalizing m with
  | nil => exact hm
  | cons x l ih => exact ih _ (Mem.set_wf m x.1 x.2 hm)

/-- The delay memories at reset are in canonical form. -/
theorem reset_tile_wf (t : TileId) : State.reset.tile[t].mem.wf = true := by
  simp [State.reset, TileMem.reset, Mem.wf, Mem.wfFrom]

end Sys2Proof.Machine
end

