-- ==== Sys2Proof/Tests/Slice0.lean ====
section
/-! SUPPORT. Tests on fixed values, and for every obligation with hypotheses a state and operands that meet them. -/
namespace Sys2Proof.Tests
open Sys2Proof Sys2Proof.Machine
set_option Elab.async false

/-! ### Helpers -/

/-- A message with CMD, W1 = 0 and the words from W2. -/
def ask (code : Nat) (ws : List Nat) : Msg := mkMsg 0 (wordN code :: 0 :: ws.map wordN)

/-- The firmware runs and serves, on a device alone. -/
def up : State := { State.reset with boot.phase := .firmware, fw.started := true, host.ready := true }

def serves (s : State) : Bool :=
  decide (s.boot.phase = .firmware) && s.fw.started && !s.fw.reading && !s.sup.restarting && decide (s.fw.line = []) &&
    (!s.link.active || (!s.link.paired && decide (∀ p : Fin 32, s.link.pos = some p → s.twinOf p.val = none)))

theorem serving_of {s : State} (h : serves s = true) : Serving s := by
  simp only [serves, Bool.and_eq_true, Bool.or_eq_true, decide_eq_true_eq, Bool.not_eq_true'] at h
  exact ⟨h.1.1.1.1.1, h.1.1.1.1.2, h.1.1.1.2, h.1.1.2, h.1.2, h.2⟩

def asks (code len tail : Nat) (m : Msg) (s : State) : Bool :=
  decide (m.box = 0) && decide (cmdOf m = code) && decide (fld m.w[0] 24 8 = 0) && decide (mword m 1 = 0) &&
    decide (len ≤ m.len.toNat) && decide (∀ i, i < m.len.toNat → tail ≤ i → mword m i = 0) && decide (s.fw.q[0].length < 32)

theorem request_of {code len tail : Nat} {m : Msg} {s : State} (h : asks code len tail m s = true) :
    Request code len tail m s := by
  simp only [asks, Bool.and_eq_true, decide_eq_true_eq] at h
  obtain ⟨⟨⟨⟨⟨⟨h1, h2⟩, h3⟩, h4⟩, h5⟩, h6⟩, h7⟩ := h
  exact ⟨h1, h2, h3, h4, h5, fun i a b => h6 i b a, h7⟩

/-- A serving device and a message that asks a command of it and meets a condition, as a decidable fact. -/
abbrev Asked (code len tail : Nat) (ws : List Nat) (s : State) (pre : Msg → Prop) [DecidablePred pre] : Prop :=
  (serves s && asks code len tail (ask code ws) s && decide (pre (ask code ws))) = true

theorem Asked.holds {code len tail : Nat} {ws : List Nat} {s : State} {pre : Msg → Prop} [DecidablePred pre]
    (h : Asked code len tail ws s pre) : Serving s ∧ Request code len tail (ask code ws) s ∧ pre (ask code ws) := by
  simp only [Bool.and_eq_true, decide_eq_true_eq] at h
  exact ⟨serving_of h.1.1, request_of h.1.2, h.2⟩

/-! ### WellFormed: an ill-formed term for each check, which the check refuses -/

theorem test_wfNop_refuses : wfNop 2 = false ∧ exec (.nop 2 24) up = .fault (.illFormed "NOP") := ⟨by decide +kernel, rfl⟩

theorem test_wfWrite_refuses : wfWrite [7] 88 = false ∧ exec (.write 0x00F [7] 88) up = .fault (.illFormed "WRITE") :=
  ⟨by decide +kernel, rfl⟩

theorem test_wfDiscard_refuses :
    wfDiscard 128 = false ∧ exec (.chainFrameDiscard 128) up = .fault (.illFormed "CHAIN_FRAME_DISCARD") := ⟨by decide +kernel, rfl⟩

/-- A serial frame whose start edge comes again after n edges, with DI0 high throughout and DI1 low. -/
def serial (c : PortCfg) (n : Nat) : RxFrame :=
  { edges := (List.range (n + 1)).map fun i => ((if i = 0 ∨ i = n then c.marks true else !c.marks true), true, false)
    subs := [], bmcBad := false, rate := 0, stampAt := 0 }

/-- An edge too few is one glitch, and four frame lengths without a start are three (R207). -/
theorem test_glitches :
    (let c := up.port[7].cfg
     frameGood 7 c (serial c c.len) = true ∧ frameGood 7 c (serial c (c.len - 1)) = false ∧
       frameGlitches 7 c (serial c (c.len - 1)) = 1 ∧ frameGlitches 7 c (serial c (4 * c.len)) = 3) := by decide +kernel

/-- A message row whose message names another command. -/
theorem test_wfCmd_refuses : exec (.clkGet (ask 0x0201 [0x24])) up = .fault (.illFormed "CLK_GET") := rfl

/-! ### 13, 19: the host port -/

/-- A port whose sticky flags are set and whose mailboxes hold messages. -/
def flagged : State :=
  { up with
    host.badcmd := true, host.addrOvr := true, host.cfgerr := true, host.intsrc := 4
    host.mbi := .replicate 4 { Mbi.reset with go := true, badlen := true, busywr := true, len := 9 }
    host.mbo := .replicate 4 { Mbo.reset with go := true, w := .replicate 16 0xAB, len := 8 } }

theorem witness_RegisterAccess :
    up.host.ready = true ∧
    (([0, 3, 6, 7, 0x00A, 0x00E, 0x010, 0x0FF, 0x200, 0xFFF] : List Half).all fun a => decide (a.toNat ≤ 3 ∨ a = 6 ∨ a = 7 ∨
      0x00A ≤ a.toNat ∧ a.toNat ≤ 0x00E ∨ 0x010 ≤ a.toNat ∧ a.toNat < 0x100 ∨ 0x200 ≤ a.toNat ∧ a.toNat < 0x1000)) = true ∧
    0x1000 ≤ (0x1000 : Half).toNat ∧ 0x1000 ≤ (0xFFFF : Half).toNat := by decide +kernel

theorem witness_MailboxControl :
    up.host.ready = true ∧ flagged.host.ready = true ∧
    (∀ b : BoxId, up.host.mbi[b].go = false ∧ up.host.mbo[b].go = false ∧ flagged.host.mbi[b].go = true ∧
      flagged.host.mbo[b].go = true) ∧
    (let s := { flagged with host.mbi := flagged.host.mbi.map fun (m : Mbi) => { m with placed := some flagged.clk.now } }
     ∀ b : BoxId, s.host.ready = true ∧ s.host.mbi[b].go = true ∧ s.host.mbi[b].placed = some s.clk.now ∧
       flagged.host.mbi[b].placed ≠ some flagged.clk.now) ∧
    (0xFFFFFEFF : Word).getLsbD 8 = false ∧ (∀ len ∈ ([8, 16] : List (BitVec 5)), 8 ≤ len.toNat ∧ len.toNat ≤ 16) ∧
    (∀ len ∈ ([0, 7, 17, 31] : List (BitVec 5)), len.toNat < 8 ∨ 16 < len.toNat) ∧
    Instr.registerWrite 0x110 0 = .registerWrite (BitVec.ofNat 16 (0x100 + 32 * (0 : BoxId).val + 16)) 0 := by decide +kernel

theorem witness_HostReset :
    flagged.host.ready = true ∧ flagged.boot.phase = .firmware ∧ { flagged with boot.phase := .rom }.boot.phase ≠ .firmware := by
  decide +kernel

theorem witness_DirectFrames :
    up.boot.straps.hchain = false ∧ up.host.ready = true ∧ { up with host.ready := false }.host.ready = false ∧
    (4 ≤ (4 : Byte).toNat ∧ 4 ≤ (0xFF : Byte).toNat ∧ 8 ≤ 8) ∧ (0xFFF : Half).toNat < 0x1000 ∧
    0x1000 ≤ (0x1000 : Half).toNat ∧ 31 < 32 ∧ (0x00E : Half).toNat + 1 < 0x10000 := by decide +kernel

/-- Two consecutive writes complete. -/
theorem witness_DirectFrames_pair : ∃ t u, exec (.write 0x00E [5] 56) up = .next t ∧
    exec (.write (0x00E + 1) [6] (24 + 32 * [(6 : Word)].length)) t = .next u := ⟨_, _, rfl, rfl⟩

/-- A device in a chain that holds a response stage. -/
def chained : State := { up with boot.straps.hchain := true, host.resp := 0x1122334455667788 }

theorem witness_ChainFrames :
    chained.boot.straps.hchain = true ∧ chained.host.ready = true ∧ (1 % 64 ≠ 0 ∧ 63 % 64 ≠ 0 ∧ 65 % 64 ≠ 0 ∧ (0 % 64 ≠ 0 ∨ 0 = 0)) ∧
    { chained with host.ready := false }.host.ready = false ∧ (0xFFF : Half).toNat < 0x1000 ∧ (0xFFF : Half) ≠ 0x010 := by
  decide

/-- Two messages wait for every outbound mailbox, and a lost event is to be reported. -/
def waiting : State :=
  { up with
    fw.q := .replicate 4 [ask 0x101 [1], ask 0x102 [2]], fw.loss := 5, fw.lostHeld := true
    fw.bulkOut := List.replicate 40 (ask 9 [5]) }

theorem witness_OutboundSend :
    waiting.sup.restarting = false ∧ waiting.boot.phase = .firmware ∧
    (∀ b : BoxId, waiting.host.mbo[b].go = false ∧ waiting.fw.q[b] = ask 0x101 [1] :: [ask 0x102 [2]] ∧ 8 ≤ (ask 0x101 [1]).len.toNat) ∧
    (let s := { waiting with fw.q := .replicate 4 [] }
     s.fw.q[1] = [] ∧ s.fw.bulkOut = ask 9 [5] :: List.replicate 39 (ask 9 [5]) ∧ 8 ≤ (ask 9 [5]).len.toNat) := by decide +kernel

/-- A bulk transfer starts though nothing is queued, and keeps 32 fragments in the queue (R370). -/
theorem test_bulk_starts : Completes (.outboundSend 1) { waiting with fw.q := .replicate 4 [] } fun t =>
    t.host.mbo[1].go = true ∧ t.fw.q[1].length = 32 ∧ t.fw.bulkOut.length = 7 := ⟨_, rfl, by decide +kernel⟩

/-- SCRATCH holds what was written (R480). -/
theorem test_scratch : Completes (.registerWrite 0x00F 0x12345678) up fun t => t.host.scratch = 0x12345678 := ⟨_, rfl, by decide +kernel⟩

/-- GO with LEN 17 sets BADLEN and CFGERR and sends nothing (R362). -/
theorem test_go_badlen : Completes (.go 3 17) up fun t =>
    t.host.mbi[3].badlen = true ∧ t.host.mbi[3].go = false ∧ t.host.cfgerr = true := ⟨_, rfl, by decide +kernel⟩

/-- A chain frame shifts out the stage held before and keeps its own result for the next (R354). -/
theorem test_chain_status : Completes (.chainFrameExecute [] 0x03_0000_00000000_5A) chained fun t =>
    (t.host.resp).truncate 8 = (0x5A : Byte) := ⟨_, rfl, by decide +kernel⟩

/-- What comes in from the device before passes through behind the device's own response stage (R354). -/
theorem test_chain_through : Completes (.chainFrameExecute [0xAABBCCDD_01020304] 0) chained fun t =>
    t.host.hdo = { statusByte := 0x11, words := [0x22334455, 0x667788, 0xAABBCCDD, 0x01020304] } := ⟨_, rfl, by decide +kernel⟩

/-! ### 14: SYS -/

/-- Not quiet, with an output that runs. -/
def loudDev : State := { up with sup.quiet := 0, clk.out := up.clk.out.set 2 { ClkOut.reset with started := true, running := true } }

theorem witness_SysReports :
    Asked 0x0101 8 2 [] up (fun _ => True) ∧ Asked 0x0102 8 2 [] up (fun _ => True) ∧ Asked 0x0104 8 2 [] up (fun _ => True) ∧
    Asked 0x010A 8 3 [1 + 256 * 11] up (fun m => mword m 2 = wordN (1 + 256 * (11 : PortId).val)) ∧
    Asked 0x010A 8 3 [7 + 256 * 255] up (fun m => mword m 2 = wordN (7 + 256 * (255 : Fin 256).val)) ∧
    Asked 0x010A 8 3 [0x0E] up (fun m => mword m 2 = 0x0E) ∧ Asked 0x010A 8 3 [0x30009] up (fun m => mword m 2 = 0x30009) := by decide +kernel

theorem witness_SysQuiet :
    Asked 0x0103 8 3 [1] loudDev (fun m => mword m 2 = 1 ∧ loudDev.sup.quiet = 0) ∧
    (let s := { up with sup.quiet := 2, pcd.streamLost := true }
     Asked 0x0103 8 3 [0] s (fun m => mword m 2 = 0 ∧ s.sup.quiet &&& ~~~2#7 = 0 ∧ s.pcd.streamLost = true)) ∧
    (let s := { up with sup.quiet := 7 }
     Asked 0x0103 8 3 [0] s (fun m => mword m 2 = 0 ∧ s.sup.quiet &&& ~~~2#7 ≠ 0)) ∧
    (let s := { up with sup.quiet := 2 }
     Asked 0x0103 8 3 [0] s (fun m => mword m 2 = 0 ∧ s.sup.quiet &&& ~~~2#7 = 0 ∧ s.sup.quiet ≠ 0 ∧ s.pcd.streamLost = false ∧ s.pcd.supplyLow = false)) := by decide +kernel

/-- Handle 0 is filling, handle 1 is done. -/
def filling : State :=
  { up with
    fw.handle := (up.fw.handle.set 0 (some { kind := .graph, size := 100, bytes := [1, 2, 3, 4], status := none })).set 1
      (some { kind := .batch, size := 40, bytes := [1, 2, 3, 4], status := some 0 }) }

/-- A fragment on MBI1. -/
def frag (off : Nat) : Msg := mkMsg 1 [wordN 1, wordN off, 0x11223344]

/-- The handle that is filling. -/
def graphHandle : Handle := { kind := .graph, size := 100, bytes := [1, 2, 3, 4], status := none }

theorem witness_Transfers :
    (Asked 0x0105 8 4 [3, 4000] filling (fun m => (mword m 2).toNat < 4 ∧ 0 < (mword m 3).toNat ∧
        filling.staged + (mword m 3).toNat ≤ 327680) ∧
      filling.fw.handle[(2 : Fin 8)] = none ∧ ∀ j : Fin 8, j < 2 → filling.fw.handle[j] ≠ none) ∧
    (Asked 0x0105 8 4 [0, 327680] up (fun m => (mword m 2).toNat < 4 ∧ 0 < (mword m 3).toNat ∧
        up.staged + (mword m 3).toNat ≤ 327680) ∧ up.fw.handle[(0 : Fin 8)] = none) ∧
    (Asked 0x0106 8 3 [2] filling (fun m => mword m 2 = wordN ((1 : Fin 8).val + 1)) ∧ filling.fw.handle[(1 : Fin 8)] ≠ none) ∧
    (let h := graphHandle
     filling.boot.phase = .firmware ∧ filling.sup.restarting = false ∧ (frag 4).box = 1 ∧ cmdOf (frag 4) = 1 ∧
      filling.fw.handle[(0 : Fin 8)] = some h ∧ h.status = none ∧ h.kind ≠ .image ∧
      (∀ j : Fin 8, j < 0 → filling.fw.handle[j] = none) ∧
      ((mword (frag 4) 1).toNat = h.bytes.length ∧ h.bytes.length + 4 * (min (frag 4).len.toNat 16 - 2) < h.size) ∧
      ((mword (frag 8) 1).toNat ≠ h.bytes.length ∧ filling.evOn 0x8107 = true ∧ filling.evRoom = true)) := by decide +kernel

/-- A device with a readable key and a boot flash. -/
def sfdp : Sfdp := { density := 0x1000000, page := 256, erase4 := true, fast := true, three := false }
def keyed : State := { up with boot.keyRead := true, sup.quiet := 0, boot.flash := some sfdp }

/-- The directory of a device that tries the image in slot B (Table 15.8). -/
def dir0 : DirRec := { dseq := 4, slotSize := 0x100000, stateA := 1, stateB := 2, active := 0, seqA := 3, seqB := 5 }
def tried : Vector (List Byte) 2 := .replicate 2 (DirRec.bytes { dir0 with stateB := 3 })

/-- Every port is in RUN and channel 15 too, on a rail of 30 V; SAP0 and AES0 feed no reference. -/
def busy : State :=
  { up with
    pcd.rail := up.pcd.rail.map fun x => { x with code := 2000 }
    pcd.refClock := true
    port := up.port.map fun (p : Port) => { p with st := .run }
    pcd.ch := up.pcd.ch.set 15 { up.pcd.ch[15] with st := .run } }

/-- SYS_SLEEP waits for an answer to be given, or sent. -/
def dozing (m : Option Msg) : State := { up with fw.sleep := some (3, m), clk.tickRun := true }

theorem witness_SysSleep :
    (∀ x ∈ [1, 2, 3], Asked 0x0108 8 3 [x] busy (fun m => mword m 2 = 1 ∨ mword m 2 = 2 ∨ mword m 2 = 3)) ∧
    (busy.trying = false ∧ busy.fw.sleep = none ∧ busy.clk.actSrc = none ∧ busy.pcd.ch[15].st = .run ∧ busy.rampOk 15 = true) ∧
    (let s := { busy with boot.flash := some sfdp, boot.dir := tried }
     Asked 0x0108 8 3 [1] s (fun m => mword m 2 = 1 ∧ s.trying = true)) ∧
    Asked 0x0108 8 3 [1] (dozing none) (fun m => mword m 2 = 1 ∧ (dozing none).trying = false ∧ (dozing none).fw.sleep ≠ none) ∧
    (let m := ask 0x0108 [1]
     (dozing m).fw.sleep = some (3, some m) ∧ (dozing m).stopped = true ∧ m.box = 0 ∧ cmdOf m = 0x0108 ∧ (dozing m).fw.line = [] ∧
      { busy with fw.sleep := some (3, some m) }.stopped = false) ∧
    ((dozing none).fw.sleep = some (3, none) ∧ (dozing none).fw.q[0] = [] ∧ (dozing none).fw.sched = [] ∧ (dozing none).fw.line = [] ∧
      (dozing none).clk.tickRun = true) := by decide +kernel

theorem witness_SysSaveSleepReset :
    (Asked 0x0107 8 2 [] keyed (fun _ => True) ∧ keyed.boot.keyRead = true ∧
      keyed.writeTo = some 0 ∧ keyed.hasCopy 0 = true) ∧
    (Asked 0x0107 8 2 [] up (fun _ => True) ∧ up.boot.keyRead = false) ∧
    (let s := { keyed with boot.flash := some { sfdp with density := 0x1000 } }
     Asked 0x0107 8 2 [] s (fun _ => True) ∧ s.boot.keyRead = true ∧ s.writeTo = some 0 ∧ s.hasCopy 0 = false) ∧
    Asked 0x0109 8 3 [0xD1E5] up (fun m => mword m 2 = 0xD1E5) := by decide +kernel

/-! ### 13, 14: consumption, the checks, Capo-H -/

/-- Every inbound mailbox holds the message. -/
def holding (m : Msg) : State := { up with host.mbi := .replicate 4 { Mbi.reset with go := true, len := m.len, w := m.w } }

/-- The same, with MBI3 empty. -/
def holding0 (m : Msg) : State := { holding m with host.mbi := (holding m).host.mbi.set 3 .reset }

/-- The queue of MBO0 is full. -/
def full : State := { holding0 (ask 0x101 []) with fw.q := up.fw.q.set 0 (List.replicate 32 (ask 0x101 [])) }

theorem witness_ConsumeExecutes :
    sysInfoCmd ∈ allCmds ∧ (holding (ask 0x101 [])).boot.phase = .firmware ∧ (holding (ask 0x101 [])).sup.restarting = false ∧
    (∀ b : BoxId, (holding (ask 0x101 [])).host.mbi[b].go = true) ∧
    cmdOf { box := 0, len := (holding (ask 0x101 [])).host.mbi[(0 : BoxId)].len,
            w := (holding (ask 0x101 [])).host.mbi[(0 : BoxId)].w } = sysInfoCmd.code ∧
    (holding0 (ask 0x101 [])).host.mbi[(0 : BoxId)].go = true ∧ (holding0 (ask 0x101 [])).host.mbi[(3 : BoxId)].go = false ∧
    (holding (ask 0x101 [])).fw.q[1].length < 32 ∧
    (let s := { holding (ask 0x101 []) with fw.q := up.fw.q.set 1 (List.replicate 32 (ask 0x101 [])) }
     s.host.mbi[(1 : BoxId)].go = true ∧ cmdOf { box := 1, len := s.host.mbi[(1 : BoxId)].len, w := s.host.mbi[(1 : BoxId)].w } ≠ 1 ∧
       32 ≤ s.fw.q[1].length) :=
  ⟨by simp [allCmds], by decide +kernel⟩

theorem witness_ConsumeUnusable :
    (let s := holding0 (ask 0x0F00 [])
     s.host.mbi[(3 : BoxId)].go = false ∧ s.boot.phase = .firmware ∧ s.sup.restarting = false ∧ s.host.mbi[(2 : BoxId)].go = true ∧ s.evOn 0x8103 = true ∧
      s.evRoom = true ∧ s.host.mbi[(0 : BoxId)].go = true ∧ s.fw.q[0].length < 32 ∧ s.fw.line = [] ∧ s.serves = true ∧
      0x0F00 ≤ fld s.host.mbi[(0 : BoxId)].w[0] 0 16) ∧
    (full.host.mbi[(0 : BoxId)].go = true ∧ full.host.mbi[(3 : BoxId)].go = false ∧ 32 ≤ full.fw.q[0].length ∧ full.fw.drop0.toNat + 1 < 2 ^ 32 - 1 ∧
      full.evOn 0x8104 = true ∧ full.evRoom = true) := by decide +kernel

/-- Messages that fail each check: DIR, AT without the mark, DEST without FWD, MBI3, LEN 7, W1 without AT, a field. -/
theorem witness_CommandChecks :
    serves up = true ∧ up.fw.q[0].length < 32 ∧ up.fw.q[3].length < 32 ∧
    (let m := ask 0x1000101 []
     m.box = 0 ∧ cmdOf m = sysInfoCmd.code ∧ m.w[0].getLsbD 24 = true) ∧
    (let m := ask 0x2000101 []
     cmdOf m = sysInfoCmd.code ∧ m.w[0].getLsbD 24 = false ∧ m.w[0].getLsbD 25 = true ∧ sysInfoCmd.timed = false) ∧
    (let m := ask 0x8000101 []
     cmdOf m = sysInfoCmd.code ∧ fld m.w[0] 24 3 = 0 ∧ fld m.w[0] 27 5 ≠ 0) ∧
    (let m := mkMsg 3 [0x101]
     m.box = 3 ∧ cmdOf m = sysInfoCmd.code ∧ fld m.w[0] 24 8 = 0 ∧ sysInfoCmd.safety = false) ∧
    (let m := { ask 0x101 [] with len := 7 }
     m.box = 0 ∧ fld m.w[0] 24 8 = 0 ∧ m.len.toNat < sysInfoCmd.len m) ∧
    (let m := mkMsg 0 [0x101, 1]
     fld m.w[0] 24 8 = 0 ∧ sysInfoCmd.len m ≤ m.len.toNat ∧ mword m 1 ≠ 0) ∧
    (let m := ask 0x101 [5]
     fld m.w[0] 24 8 = 0 ∧ sysInfoCmd.len m ≤ m.len.toNat ∧ mword m 1 = 0 ∧ (sysInfoCmd.check up m).isSome = true) := by decide +kernel

/-- A member of a ring at frame 1000. -/
def member : State := { up with boot.straps.role := 0, link.pos := some 3, clk.frame := 1000 }

/-- MTX_BATCH with AT, the frame in W1. -/
def timedBatch (f : Nat) : Msg := mkMsg 0 [wordN 0x2000401, wordN f, 1, 0, 5]

theorem witness_TimedAndForwarded :
    serves up = true ∧ serves member = true ∧ up.fw.q[0].length < 32 ∧ member.fw.q[0].length < 32 ∧
    (∀ m ∈ [timedBatch 1015, timedBatch 1016], m.box = 0 ∧ cmdOf m = mtxBatchCmd.code ∧ mtxBatchCmd.len m ≤ m.len.toNat ∧
      mtxBatchCmd.timed = true ∧ fld m.w[0] 24 8 = 2 ∧ (mtxBatchCmd.check up m).isNone = true ∧
      (mtxBatchCmd.check member m).isNone = true) ∧
    member.link.active = false ∧
    up.standalone = true ∧ member.standalone = false ∧ member.link.pos ≠ none ∧
    (mword (timedBatch 1015) 1 - member.clk.frame).toInt < 16 ∧ 16 ≤ (mword (timedBatch 1016) 1 - member.clk.frame).toInt ∧
    (let m := ask 0x4000101 []
     m.box = 0 ∧ cmdOf m = sysInfoCmd.code ∧ sysInfoCmd.len m ≤ m.len.toNat ∧ fld m.w[0] 24 3 = 4 ∧ mword m 1 = 0 ∧
      up.link.active = false) := by decide +kernel

theorem witness_CapoHReset : full.boot.phase = .firmware := by decide +kernel

/-- The keep-alive runs with the policy QUIET. -/
def kept : State := { up with fw.kaInt := 100, fw.kaQuiet := true, sup.quiet := 0 }

theorem witness_KeepAlive :
    kept.boot.phase = .firmware ∧ kept.sup.restarting = false ∧ kept.fw.kaInt ≠ 0 ∧ kept.fw.kaLapsed = false ∧
    kept.evOn 0x8105 = true ∧ kept.evRoom = true ∧
    ({ kept with fw.kaQuiet := false }.fw.kaQuiet = false ∧ { kept with sup.quiet := 8 }.outsHeld = true) ∧
    (let m := mkMsg 3 [0x104]
     let s := { kept with fw.kaLapsed := true, sup.quiet := 4 }
     cmdOf m = 0x0104 ∧ m.box = 3 ∧ fld m.w[0] 24 8 = 0 ∧ mword m 1 = 0 ∧ 8 ≤ m.len.toNat ∧
      (∀ i, i < m.len.toNat → 2 ≤ i → mword m i = 0) ∧ s.fw.q[3].length < 32 ∧ s.serves = true ∧ s.link.active = false) := by
  decide

/-! ### 11: clocks -/

/-- A locked device on REFCLK: AS1 and REF feed outputs 2 and 3, AES0 qualifies and is preferred. -/
def locked : State :=
  { up with
    clk.sysLock := true, clk.lnkLock := true, clk.actSrc := some .refclk, clk.qual := [.refclk, .aes0]
    clk.refOrder := [.aes0, .refclk, .sap0], clk.fallback := false, clk.tickRun := true, sup.quiet := 0, clk.sysCnt := 12345
    port := up.port.map fun (p : Port) => { p with st := .run }
    clk.asn := up.clk.asn.map fun a => { a with enabled := true, lock := true }
    clk.out := (up.clk.out.set 2 { ClkOut.reset with started := true, running := true, src := .asn 1, d := 7 }).set 3
      { ClkOut.reset with started := true, running := true, src := .ref }
    clk.bucketIn := .replicate 6 (some 5) }

/-- The same device in holdover. -/
def held : State := { locked with clk.hold := true, clk.lostSrc := some .refclk }

def startedOuts : State := { up with clk.out := up.clk.out.map fun (o : ClkOut) => { o with started := true } }

theorem witness_ClkSettings :
    Asked 0x0201 8 4 [0x24, 2000] up (fun m => mword m 2 = 0x24 ∧ (mword m 3).toNat ≤ 2000) ∧
    Asked 0x0201 8 4 [0x21, 2] up
      (fun m => mword m 2 = 0x21 ∧ (mword m 3).toNat ≤ 3 ∧ (MRate.ofCode (mword m 3).toNat).family = up.clk.family ∧
        up.standalone = true ∧ up.link.active = false) ∧
    Asked 0x0201 8 4 [0x21, 3] member (fun m => mword m 2 = 0x21 ∧ (mword m 3).toNat ≤ 3 ∧ member.standalone = false ∧
      member.link.pos ≠ none) ∧
    (∀ v ∈ [1, 65536], Asked 0x0201 8 4 [0x2A + 256 * 7, v] startedOuts (fun m =>
      mword m 2 = wordN (0x2A + 256 * (7 : Fin 8).val) ∧ 1 ≤ (mword m 3).toNat ∧ (mword m 3).toNat ≤ 65536 ∧
      startedOuts.clk.out[(7 : Fin 8)].started = true ∧ startedOuts.clk.out[(7 : Fin 8)].src = .off)) ∧
    Asked 0x0202 8 3 [0x24] up (fun m => mword m 2 = 0x24) ∧
    Asked 0x0202 8 3 [0x2A + 256 * 7] up (fun m => mword m 2 = wordN (0x2A + 256 * (7 : Fin 8).val)) ∧
    Asked 0x0206 8 2 [] up (fun _ => True) := by decide +kernel

theorem witness_ClkOutputs :
    Asked 0x0203 8 3 [0x0C] locked (fun m => mword m 2 ≠ 0 ∧ (mword m 2).toNat < 256 ∧ ∀ n : Fin 8,
      (mword m 2).getLsbD n.val = true → locked.chainOk locked.clk.out[n] = true ∧ locked.pairedOdd n = false) ∧
    Asked 0x0203 8 3 [0x80] up (fun m => mword m 2 = wordN (2 ^ (7 : Fin 8).val) ∧ up.chainOk up.clk.out[(7 : Fin 8)] = false) ∧
    Asked 0x0204 8 3 [0xFF] locked (fun m => mword m 2 ≠ 0 ∧ (mword m 2).toNat < 256) ∧
    Asked 0x0205 8 4 [8, 0] up (fun m => mword m 2 = wordN (2 ^ (3 : Fin 4).val) ∧ mword m 3 = 0) ∧
    Asked 0x0205 8 4 [0, 8] locked (fun m => mword m 2 = 0 ∧ mword m 3 = wordN (2 ^ (3 : Fin 4).val)) := by decide +kernel

theorem witness_ReferenceRows :
    (locked.clk.actSrc = some .refclk ∧ locked.clk.hold = false ∧ locked.clk.holdLim ≠ 0 ∧ held.clk.hold = true ∧
      { held with clk.holdIn := 5 }.clk.holdIn ≠ 0 ∧ (if locked.clk.hold then locked.clk.holdIn else locked.clk.holdLim) ≠ 0) ∧
    (locked.clk.actSrc ≠ some .aes0 ∧ portSrc 8 = some .aes0 ∧ locked.port[(8 : PortId)].st = .run ∧
      { locked with clk.actSrc := some .aes0 }.clk.actSrc = some .aes0) ∧
    (locked.clk.refOrder.contains RefSrc.sap0 = true ∧ locked.clk.qual.contains RefSrc.sap0 = false ∧ locked.usable .sap0 = true) ∧
    ((locked.clk.refOrder.takeWhile fun x => x ≠ .refclk).contains RefSrc.aes0 = true ∧
      locked.clk.qual.contains RefSrc.aes0 = true ∧ locked.usable .aes0 = true) ∧
    locked.refFed locked.clk.out[(3 : Fin 8)] = true := by decide +kernel

theorem witness_SynthesizerRows :
    locked.clk.sysLock = true ∧ (if locked.clk.hold then locked.clk.holdIn else locked.clk.holdLim) ≠ 0 ∧ locked.clk.asn[(3 : Fin 4)].enabled = true ∧ locked.clk.asn[(3 : Fin 4)].lock = true ∧
    locked.clk.bucketIn[(0 : SynId)] = some 5 ∧ ((5 : Fin 16).val + 2 ≤ (7 : Fin 16).val ∧ (3 : Fin 16).val + 2 ≤ (5 : Fin 16).val) ∧
    locked.locked 0 = true ∧ locked.evOn 0x8208 = true ∧ locked.evRoom = true := by decide +kernel

theorem witness_OutputRows :
    up.clk.syncByFrame = false ∧ up.clk.syncPend = none ∧ { up with clk.syncByFrame := true }.clk.syncByFrame = true ∧
    { up with clk.syncPend := some 1 }.clk.syncPend ≠ none := by decide +kernel

theorem witness_FallbackAndReturn :
    locked.clk.fallback = false ∧ (if locked.clk.hold then locked.clk.holdIn else locked.clk.holdLim) ≠ 0 ∧ held.clk.actSrc = some .refclk ∧ held.clk.hold = true ∧ held.clk.realign = .none ∧
    8 * (-2048 : Int).natAbs ≤ held.clk.mrate.cycles ∧ held.clk.mrate.cycles < 8 * (2049 : Int).natAbs ∧
    held.clk.mrate.cycles < 8 * (-2049 : Int).natAbs := by decide +kernel

/-! ### 08: ports and microphones -/

def withPorts (f : Port → Port) : State := { up with sup.quiet := 0, clk.tickRun := true, port := up.port.map f }

/-- Every port in RUN with a frame queued. -/
def runPorts : State := withPorts fun p =>
  { p with
    st := .run, masks := { p.masks with in0 := 1, out0 := 3 }, fade := .at 1, rxBuf := [([1, 2], [3, 4])]
    last := ([5, 6], [7, 8]), txData := [0x11112222, 0x33334444] }

/-- The slots of the reset settings, for frames that fit them. -/
def slotsAt (v : Word) : List Word := List.replicate up.port[0].cfg.s v

theorem witness_PortSettings :
    (let s := runPorts
     let p : PortId := 7
     Asked 0x0301 8 4 [0x0C + 256 * 7, 4096] s (fun m => mword m 2 = wordN (0x0C + 256 * p.val) ∧ 16 ≤ (mword m 3).toNat ∧
       (mword m 3).toNat ≤ 4096)) ∧
    (let p : PortId := 7
     Asked 0x0301 8 4 [0x0C + 256 * 7, 16] up (fun m => mword m 2 = wordN (0x0C + 256 * p.val) ∧ 16 ≤ (mword m 3).toNat ∧
       (mword m 3).toNat ≤ 4096) ∧ up.cfgOk p up.port[p].cfg up.port[p].newest = true ∧
       up.portClash (fun q => up.port[q].cfg) (fun q => decide (up.port[q].st ≠ .off)) p up.port[p].newest = false) ∧
    (let s := withPorts fun p => { p with st := .wait }
     let p : PortId := 7
     Asked 0x0301 8 4 [9 + 256 * 7, s.port[p].cfg.rxbase] s (fun m => mword m 2 = wordN (0x09 + 256 * p.val) ∧
       mword m 3 = wordN s.port[p].cfg.rxbase) ∧ s.cfgOk p s.port[p].cfg s.port[p].newest = true ∧ s.port[p].st ≠ .off ∧
       s.port[p].cfg.rxbase ≤ 127) ∧
    Asked 0x0302 8 3 [1] up (fun m => mword m 2 = wordN (1 + 256 * (0 : PortId).val)) ∧
    Asked 0x0302 8 3 [14 + 256 * 7] up (fun m => mword m 2 = wordN (14 + 256 * (7 : PortId).val)) ∧
    Asked 0x0306 8 3 [11] up (fun m => mword m 2 = wordN (11 : PortId).val) := by decide +kernel

theorem witness_PortStartStop :
    (let p : PortId := 7
     Asked 0x0303 8 3 [2 ^ 7] up (fun m => mword m 2 = wordN (2 ^ p.val)) ∧ up.port[p].st = .off ∧ up.port[p].cfg.clksrc = none ∧
       up.cfgOk p up.port[p].cfg up.port[p].newest = true ∧
       up.portClash (fun q => up.port[q].cfg) (fun q => decide (up.port[q].st ≠ .off) || [p].contains q) p up.port[p].newest
         = false) ∧
    (Asked 0x0303 8 3 [2 ^ 11] runPorts (fun m => mword m 2 = wordN (2 ^ (11 : PortId).val)) ∧
      runPorts.port[(11 : PortId)].st ≠ .off) ∧
    (Asked 0x0304 8 3 [1] runPorts (fun m => mword m 2 = wordN (2 ^ (0 : PortId).val)) ∧ portSrc 0 = some .sap0 ∧
      runPorts.clk.actSrc = none) := by decide +kernel

theorem witness_PortCommands :
    (let p : PortId := 0
     Asked 0x0305 8 7 [0, 1, 0, 0, 0] up
       (fun m => mword m 2 = wordN p.val ∧ mword m 3 = 1 ∧ mword m 4 = 0 ∧ mword m 5 = 0 ∧ mword m 6 = 0) ∧
     up.portClash (fun q => up.port[q].cfg) (fun q => decide (up.port[q].st ≠ .off)) p
       { in0 := 1, in1 := 0, out0 := 0, out1 := 0 } = false ∧ 1 ≤ up.port[p].cfg.slots ∧ up.port[p].cfg.rxbase < 128 ∧
     up.rateFits up.port[p].cfg = true) ∧
    (let s := withPorts fun p => { p with aes := p.aes.map fun a => { a with status := some (.replicate 24 7) } }
     let p : PortId := 8
     Asked 0x0307 8 4 [8, 1] s (fun m => mword m 2 = wordN p.val ∧ mword m 3 = wordN (1 : Fin 2).val) ∧ 8 ≤ p.val ∧
       (s.port[p].aes[(1 : Fin 2)]).status = some (.replicate 24 7)) ∧
    (let p : PortId := 11
     Asked 0x0307 8 4 [11, 0] up (fun m => mword m 2 = wordN p.val ∧ mword m 3 = wordN (0 : Fin 2).val) ∧ 8 ≤ p.val ∧
       (up.port[p].aes[(0 : Fin 2)]).status = none) ∧
    Asked 0x0308 10 10 [11, 1, 1, 2, 3, 4, 5, 6] up (fun m => mword m 2 = wordN (11 : PortId).val ∧ mword m 3 = wordN (1 : Fin 2).val) ∧
    (let p : PortId := 7
     Asked 0x030A 8 4 [7, 1] runPorts (fun m => mword m 2 = wordN p.val ∧ mword m 3 = 1) ∧ runPorts.port[p].st = .run ∧
       runPorts.port[p].loop = false ∧ ∀ k : PortId, k ≠ p → runPorts.port[k].loop = false) ∧
    (let s := withPorts fun p => { p with st := .run, loop := true }
     Asked 0x030A 8 4 [7, 0] s (fun m => mword m 2 = wordN (7 : PortId).val ∧ mword m 3 = 0) ∧ s.port[(7 : PortId)].st = .run ∧
       s.port[(7 : PortId)].loop = true) := by decide +kernel

def withMics (f : Mic → Mic) : State := { up with mic := up.mic.map f }

theorem witness_Microphones :
    Asked 0x0309 8 5 [2 ^ 15, 0, 0] up (fun m => mword m 2 = wordN (2 ^ (15 : MicId).val) ∧ mword m 3 = 0 ∧ mword m 4 = 0) ∧
    Asked 0x0309 8 5 [0, 2 ^ 15, 0] up (fun m => mword m 2 = 0 ∧ mword m 3 = wordN (2 ^ (15 : MicId).val) ∧ mword m 4 = 0) ∧
    (let x := (withMics fun m => { m with on := true, hold := some 256, hp := false }).mic[(15 : MicId)]
     x.on = true ∧ x.hold = some 256 ∧ x.stuck = false ∧ x.hp = false ∧ up.mic[(15 : MicId)].on = false) ∧
    (let x := (withMics fun m => { m with on := true, hit := true }).mic[(15 : MicId)]
     x.on = true ∧ x.stuck = false ∧ x.hit = true) ∧
    (let x := (withMics fun m => { m with on := true, hold := none, stuck := true, alive := 256 }).mic[(15 : MicId)]
     x.on = true ∧ x.stuck = true ∧ x.alive = 256 ∧ x.hold = none) := by decide +kernel

/-- Bits that never change do not move the run of unchanged edges past 4,096; one change ends it, and a run that was full before it is seen
(R237). -/
theorem test_still_run : stillRun true 4090 0xFFFFFFFFFFFFFFFF = (4096, true) ∧ stillRun true 4090 0x7FFFFFFFFFFFFFFF = (0, true) ∧
    stillRun true 4000 0x7FFFFFFFFFFFFFFF = (0, false) := by
  decide +kernel

theorem witness_FrameReceived :
    (let p : PortId := 7
     let c := up.port[p].cfg
     (up.port[p].st = .off ∧ (withPorts fun q => { q with st := .lost }).port[p].st = .lost) ∧
     (∀ n ∈ [0, 254, 255], let x := (withPorts fun q => { q with st := .wait, good := n }).port[p]
       x.st = .wait ∧ x.loop = false ∧ x.toRun = false ∧ frameGood p x.cfg (serial c c.len) = true ∧ x.done = 0 ∧
         (x.good < 255 ∨ x.good = 255)) ∧
     (let x := runPorts.port[p]
      x.st = .run ∧ x.loop = false ∧ frameGood p x.cfg (serial c c.len) = true ∧ x.cfg.binding = .m) ∧
     (∀ n ∈ [0, 1], let x := (withPorts fun q => { q with st := .run, glitchRun := n }).port[p]
       let f := serial c (c.len - 1)
       x.st = .run ∧ x.loop = false ∧ frameGood p x.cfg f = false ∧ x.cfg.binding = .m ∧
         x.glitchRun + (frameGlitches p x.cfg f - x.overdue) ≤ 2) ∧
     (let x := (withPorts fun q => { q with st := .run, glitchRun := 2 }).port[p]
      let f := serial c (c.len - 1)
      x.st = .run ∧ x.loop = false ∧ frameGood p x.cfg f = false ∧ 1 ≤ frameGlitches p x.cfg f - x.overdue ∧
        3 ≤ x.glitchRun + (frameGlitches p x.cfg f - x.overdue) ∧ portSrc p = none ∧ x.cfg.binding = .m)) := by decide +kernel

/-- A port that sends 5 in every slot of line 0, and what it drives from a frame's start on. -/
def sender : Port := { up.port[7] with tx0 := List.replicate up.port[7].cfg.s (some 5) }
def driven : List Bool :=
  (List.range (sender.cfg.firstBit + sender.cfg.s * sender.cfg.width)).map fun e => (sender.lineBit false e).getD false

theorem witness_TransmitFrame :
    (let p : PortId := 7
     (runPorts.port[p].st = .run ∧ runPorts.port[p].cfg.binding = .m ∧ runPorts.port[p].txDone = 0 ∧
       runPorts.port[p].loop = false ∧ runPorts.sup.quiet = 0) ∧ up.port[p].st = .off ∧
     (let s := withPorts fun q => { q with st := .wait, txTail := true }
      s.port[p].st = .wait ∧ s.port[p].txTail = true ∧ s.port[p].cfg.binding = .m ∧ s.port[p].txDone = 0 ∧
        s.port[p].loop = false ∧ s.sup.quiet = 0) ∧
     (∀ n ∈ [0, 1], let s := withPorts fun q => { q with st := .stopping, stopLeft := n }
       s.port[p].st = .stopping ∧ (s.port[p].stopLeft = 0 ∨ 0 < s.port[p].stopLeft) ∧ s.port[p].cfg.binding = .m ∧
       (let x := { s.port[p] with cfg.binding := .saddle 0 false 4, fade := .at 0 }
        x.fade = .at 0 ∧ x.cfg.binding ≠ .m ∧ x.st = .stopping) ∧
       s.port[p].loop = false ∧ s.sup.quiet = 0)) ∧
    (let s := withPorts fun q => { q with st := .wait }
     let u := withPorts fun q => { q with st := .wait, cfg.binding := .saddle 0 false 4 }
     s.port[(11 : PortId)].st = .wait ∧ s.port[(11 : PortId)].txTail = false ∧ s.port[(11 : PortId)].cfg.binding = .m ∧
       s.port[(7 : PortId)].txTail = false ∧ u.port[(8 : PortId)].st = .wait ∧ u.port[(8 : PortId)].cfg.binding ≠ .m) ∧
    (0 < sender.cfg.width ∧ sender.cfg.width ≤ 32 ∧ 0 < sender.cfg.s ∧ sender.tx0.length = sender.cfg.s ∧
      sender.tx0 = List.replicate sender.cfg.s (some 5) ∧ (5 : Word).toNat < 2 ^ sender.cfg.width ∧
      sender.cfg.firstBit + sender.cfg.s * sender.cfg.width ≤ driven.length ∧
      ∀ e, e < driven.length → sender.cfg.firstBit ≤ e → sender.lineBit false e = some (driven.getD e false)) := by decide +kernel

theorem witness_PortReports :
    (let p : PortId := 11
     (runPorts.port[p].st = .run ∧ runPorts.port[p].cfg.binding = .m) ∧
     (withPorts fun q => { q with st := .stopping }).port[p].st = .stopping ∧
     (withPorts fun q => { q with st := .lost }).port[p].st = .lost ∧
     (512 ≤ 512 ∧ 511 < 512 ∧ runPorts.evOn 0x8303 = true ∧ runPorts.evRoom = true) ∧
     (∀ b ∈ [false, true], let s := withPorts fun q => { q with aes := q.aes.map fun a => { a with full := some (List.replicate 192 (b, b, b)) } }
       8 ≤ p.val ∧ (s.port[p].aes[(1 : Fin 2)]).full = some (List.replicate 192 (b, b, b))) ∧
     (portSrc p = none ∧ portSrc 0 = some .sap0 ∧ runPorts.clk.actSrc = none)) ∧
    (let s := { up with sad := up.sad.map fun (x : Saddle) => { x with st := .running } }
     s.sad[(7 : SadId)].st = .running ∧ s.sad[(7 : SadId)].tracking = false) ∧
    (let s := { runPorts with sad := up.sad.map fun (x : Saddle) => { x with st := .muted, port := some 2, ratio := 4, est := some 16777216 } }
     s.sad[(7 : SadId)].st = .muted ∧ s.sad[(7 : SadId)].port = some 2 ∧ s.port[(2 : PortId)].st = .run ∧
       s.sad[(7 : SadId)].tracking = false ∧ s.sad[(7 : SadId)].est = some 16777216 ∧
       20000 * ((12 * (16777216 : Nat) : Int) - (ratio12 s.sad[(7 : SadId)].ratio * 16777216 : Nat)).natAbs
         ≤ ratio12 s.sad[(7 : SadId)].ratio * 16777216) := by decide +kernel

/-! ### 07: the matrix and the generators -/

/-- Three crosspoints, one with a ramp that runs. -/
def mixed : State :=
  { up with
    mtx.xp := [(0, { cur := 5, a := 16384, b := -3, ramp := none }),
      (256 * 511 + 255, { cur := 20000, a := -20000, b := 0, ramp := some { g0 := 32767, j := 3, r := 10 } })]
    mtx.snap := [(0, 0x7FFFFFFF), (511, 0x80000000)], gen := up.gen.map fun (g : Gen) => { g with ty := .chime } }

/-- One batch entry: kind 0, row 2, column 1, value 5. -/
def oneEntry : List Byte := [1, 2, 0, 0, 5, 0, 0, 0]

def hnd (k : XferKind) (l : List Byte) : Option Handle := some { kind := k, size := l.length, bytes := l, status := some 0 }

/-- Handle 7 holds a batch. -/
def batched : State := { up with fw.handle := up.fw.handle.set 7 (hnd .batch oneEntry) }

theorem witness_MtxScheduled :
    (∀ v ∈ [32767, 2 ^ 32 - 32767], Asked 0x0401 8 5 [1, 256 * 511 + 255, v] up (fun m => mword m 2 = 1 ∧
      mword m 3 = wordN (256 * (511 : Fin 512).val + (255 : Fin 256).val) ∧ -32767 ≤ (mword m 4).toInt ∧
      (mword m 4).toInt ≤ 32767)) ∧
    (Asked 0x0402 8 3 [8] batched (fun m => mword m 2 = wordN ((7 : Fin 8).val + 1)) ∧
      batched.object ((7 : Fin 8).val + 1) .batch = some oneEntry ∧ oneEntry.length = 8 ∧
      (entryCheck (objWord oneEntry 0) (objWord oneEntry 1) 0 1 0).isNone = true) ∧
    Asked 0x0405 8 4 [1, 4095] up (fun m => (mword m 2).toNat ≤ 1 ∧ (mword m 3).toNat ≤ 4095) ∧
    (∀ l ∈ [[15, 1, 1932735283, 0], [15, 1, 0, 2 ^ 32 - 1200]], Asked 0x0406 8 6 l up (fun m => mword m 2 = wordN (15 : GenId).val ∧
      mword m 3 = 1 ∧ (mword m 4).toNat ≤ 1932735283 ∧ -1200 ≤ (mword m 5).toInt ∧ (mword m 5).toInt ≤ 0)) ∧
    Asked 0x0407 8 3 [0xFFFF] up (fun m => mword m 2 ≠ 0 ∧ (mword m 2).toNat < 65536) := by decide +kernel

theorem witness_MtxReads :
    Asked 0x0403 8 4 [511, 255] mixed (fun m => mword m 2 = wordN (511 : Fin 512).val ∧ mword m 3 = wordN (255 : Fin 256).val) ∧
    Asked 0x0404 8 3 [255] mixed (fun m => mword m 2 = wordN (255 : Fin 256).val) ∧
    (let s := { up with sad := up.sad.map fun (x : Saddle) => { x with st := .running, est := some 16777216 } }
     Asked 0x0408 8 3 [7] s (fun m => mword m 2 = wordN (7 : SadId).val ∧ s.sad[(7 : SadId)].st ≠ .unbound ∧
       s.sad[(7 : SadId)].tracking = false ∧ s.sad[(7 : SadId)].est = some 16777216)) := by decide +kernel

theorem witness_MtxChanges :
    mixed.mtx.fault = none ∧ mixed.mtx.selB = false ∧
    (let x := xpGet mixed.mtx.xp (256 * (511 : Fin 512).val + (255 : Fin 256).val)
     (7 : Int) ≠ x.a ∧ (7 : Int) ≠ x.cur) ∧ mixed.gen[(15 : GenId)].ty = .chime := by decide +kernel

theorem witness_RampLaw :
    ((16384 : Int) = 16384 ∧ (0 : Int) ≠ 16384 ∧ (0 : Int) = 0 ∧ (16384 : Int) ≠ 0) ∧
    (mixed.mtx.xp.map (·.1)).contains (256 * 511 + 255) = true := by decide +kernel

theorem witness_MatrixEvaluates :
    mixed.mtx.fault = none ∧ mixed.mtx.parity = [] ∧ (1 : Int) ≠ 0 ∧ mixed.mtx.resumed = none ∧
    (let s := { mixed with mtx.parity := [(0, .cur), (5, .setA)] }
     s.mtx.fault = none ∧ s.mtx.resumed = none ∧
       ∃ p ∈ s.mtx.parity, p.2 = .cur ∨ p.2 = (if s.mtx.selB then .setB else .setA)) := by decide +kernel

/-- A matrix fault whose 32-tick fade has ended. -/
def fadedFault : MtxFault := { held := .replicate 256 3, j := 32, second := false }
def faded : State := { mixed with mtx.fault := some fadedFault }

theorem witness_MatrixRows :
    (let s := { mixed with mtx.parity := [(0, .cur)] }
     s.mtx.fault = none ∧ s.mtx.parity ≠ [] ∧ s.mtx.resumed = none) ∧
    (faded.mtx.fault = some fadedFault ∧ 32 ≤ fadedFault.j ∧ fadedFault.second = false) ∧ false ≠ up.mtx.prio ∧
    (let s := { up with gen := up.gen.map fun (g : Gen) => { g with ty := .sweep, ran := 1000000, durMs := 10 } }
     s.gen[(15 : GenId)].ty = .sweep ∧ s.gen[(15 : GenId)].stopping = false ∧
       s.gen[(15 : GenId)].total s.clk.mrate.hz ≤ s.gen[(15 : GenId)].ran) := by decide +kernel

theorem witness_TickBoundary :
    { up with clk.tickRun := false }.clk.tickRun = false ∧
    { up with clk.tickRun := true }.clk.tickRun = true ∧ up.standalone = true ∧
    member.standalone = false ∧ member.clk.adopts = false := by decide +kernel

/-- Table 07.3: a ramp with R_c = 4 from 0 to 16,384, a new target 0 at its third boundary. -/
theorem test_ramp_table_07_3 :
    (let a := rampStep1 16384 0 (newRamp 0 16384 0 4 none)
     let b := rampStep1 16384 a.1 a.2
     let c := rampStep1 0 b.1 (newRamp 16384 0 b.1 4 b.2)
     let d := rampStep1 0 c.1 c.2
     let e := rampStep1 0 d.1 d.2
     let f := rampStep1 0 e.1 e.2
     [a.1, b.1, c.1, d.1, e.1, f.1]) = [4096, 8192, 6144, 4096, 2048, 0] := by decide +kernel

/-- The chime over an announcement (07, worked transition): φ for n = 2, and the first step of f. -/
theorem test_scaling_transition : phi .invSqrt 2 = 11863283 ∧ fStep 16777216 11863283 MRate.m48.alpha = 16766989 := by
  decide +kernel

/-! ### 02 to 06: the sample engines -/

/-- The first packet of the line-feed program (Table 04.5), in layout L S S. -/
theorem test_packet_table_04_5 : (decodePacket 0x31602CE000A58C00).map (·.map (·.dst)) = some [0x60, 0x59, 0x62] := by
  decide +kernel

/-- A long kind of 0b011 makes the packet a no-operation (Table 04.6). -/
theorem test_packet_long_kind_3 : decodePacket 0x000000000000_BC00 = none := by decide +kernel

/-- Worked placement (Table 05.5): G3's line on engine 7 and G2's on engine 5, and the candidate's on engine 8. -/
theorem test_placement_table_05_5 :
    ((placeLines TileMem.reset 2 [(4800, 4, false)] [false]).map fun x => (x.1[0].base4, x.2.length)) = some (0x6, 10) ∧
    ((placeLines (TileMem.reset.setTags (List.range 10) 3) 0 [(2560, 2, false)] [false]).map fun x => (x.1[0].base4, x.2))
      = some (0x1400, [10, 11, 12]) ∧
    ((placeLines (TileMem.reset.setTags (List.range 13) 3) 3 [(3000, 2, false)] [false]).map fun x => (x.1[0].base4, x.2))
      = some (0x1A09, [13, 14, 15]) := by decide +kernel

/-- Bytes of a 32-bit word, and of a 16-bit one. -/
def b32 (n : Nat) : List Byte := wordBytes [wordN n]
def b16 (n : Nat) : List Byte := (b32 n).take 2

/-- A program object (Table 06.1): LENGTH, ALLOW, packets, lines (entries, width code), PWSIZE, D words. -/
def objOf (len allow : Nat) (pk : List Nat) (dl : List (Nat × Nat)) (pws dc : Nat) : List Byte :=
  let ps := pk.flatMap fun n => b32 (n % 2 ^ 32) ++ b32 (n / 2 ^ 32)
  let ds := List.replicate (2 * dc) (0 : Byte)
  let dls := dl.flatMap fun d => b32 d.1 ++ [BitVec.ofNat 8 d.2, 0, 0, 0]
  let dloff := 64 + ps.length
  let doff := dloff + dls.length
  let total := doff + ds.length
  let h (c : Nat) := b32 0x505A4543 ++ b16 1 ++ b16 0x40 ++ b32 len ++ b32 allow ++ b16 0 ++ b16 pk.length ++ b32 dc ++ b16 0
    ++ b16 pws ++ [BitVec.ofNat 8 dl.length, 0xFF] ++ b16 0 ++ b32 64 ++ b32 doff ++ b32 dloff ++ b32 total
    ++ List.replicate 12 0 ++ b32 c
  h (objCrc (h 0 ++ ps ++ dls ++ ds) total).toNat ++ ps ++ dls ++ ds

/-- A program of two packets: a WRITE to DL0 and STOP. -/
def obj : List Byte := objOf 2 4 [0x5C * 128 + 0x60, 0x6C * 128 + 0x60] [(100, 2)] 4 16

set_option maxRecDepth 100000 in
/-- The loader accepts the object, and refuses one with a byte changed. -/
theorem test_loader : (match checkObject obj 16320 with | .ok p => p.info.length | .bad _ _ => 0) = 2 ∧
    (match checkObject (obj.set 66 9) 16320 with | .ok _ => false | .bad _ _ => true) = true := by decide +kernel

def line : Desc := { base4 := 512, n := 100, wcode := 2, inherit := false, w := 99 }

/-- A LIVE engine about to issue the packet. -/
def liveEng (pkt : Quad) (x : Engine) : Engine :=
  { x with
    st := .live, grp := some 2, prog := { ProgInfo.empty with length := 100, pwsize := 64 }, p := [(5, pkt)], pc := 5
    desc := .replicate 64 line, flags := 0, issued := 3, par0 := [(0, 5)], par1 := [(0, 7)] }

def ownedTile (x : TileMem) : TileMem := { x with owner := (List.range 10).map fun i => (i, 2), mem := [(2443, 5), (2444, 6)] }

def engines (pkt : Quad) : State :=
  { up with clk.tickRun := true, tile := up.tile.map ownedTile, eng := up.eng.map (liveEng pkt) }

/-- The packet that moves V[c] to V[d]. -/
def mv (d c : Nat) : Quad := BitVec.ofNat 64 (128 * d + c)

theorem witness_Packets :
    (let e : EngId := 19
     up.eng[e].issuing = false ∧ ([mv 31 0, mv 1 31, 0x7FFF, mv 0x5C 0x6F].all fun pkt => decide
       ((engines pkt).eng[e].issuing = true ∧ (engines pkt).clk.tickRun = true ∧ (engines pkt).eng[e].pEcc.bad = [] ∧
       (engines pkt).eng[e].issued + 1 < (engines pkt).eng[e].prog.length)) = true ∧
     ((engines (mv 31 0)).eng[e].p.get (engines (mv 31 0)).eng[e].pc.toNat
        = BitVec.ofNat 64 (128 * (31 : Fin 32).val + (0 : Fin 32).val)) ∧
     decodePacket ((engines 0x7FFF).eng[e].p.get (engines 0x7FFF).eng[e].pc.toNat) = none ∧
     (let n : Fin 16 := 15
      let u := engines (mv 0x5C 0x6F)
      let d := u.eng[e].desc[fin 64 n.val]
      let r : BankReq := { bank := bankOf (d.addr d.wNow), waited := 3 }
      let s := { u with eng := vmod u.eng e fun x => { x with req := some r } }
      u.eng[e].p.get u.eng[e].pc.toNat = BitVec.ofNat 64 (128 * 0x5C + 0x60 + n.val) ∧ u.eng[e].issuing = true ∧
        s.eng[e].desc[fin 64 n.val] = d ∧ s.eng[e].p.get s.eng[e].pc.toNat = BitVec.ofNat 64 (128 * 0x5C + 0x60 + n.val) ∧
        s.eng[e].req = some r ∧ r.bank = bankOf (d.addr d.wNow) ∧ (∀ k : EngId, k ≠ e → s.eng[k].req = none) ∧
        s.eng[e].st = .live ∧ s.tile[tileOf e].mem.wf = true ∧ s.inRange e d false d.wNow = true ∧
        s.eng[e].pEcc.bad = [] ∧ s.eng[e].issued + 1 < s.eng[e].prog.length ∧
        s.fadedWrite e (d.addr d.wNow / 2048) = false)) := by decide +kernel

/-- Engines 5 and 7 wait for bank 8 of their tile. -/
def requesting (a b : Nat) : State :=
  { engines (mv 0x5C 0x60) with
    eng := vmod (vmod (engines (mv 0x5C 0x60)).eng 5 fun x => { x with req := some { bank := 8, waited := a } }) 7
      fun x => { x with req := some { bank := 8, waited := b } } }

/-- Results and corrections are due everywhere. -/
def dueAll : State :=
  { engines 0 with
    eng := (engines 0).eng.map fun (x : Engine) =>
      { x with
        flight := [{ unit := .row, left := 0, val := 9 }], pHold := some 4, dHold := some 70000
        pEcc := { bad := [(4, .single), (9, .double)], once := [] }, dEcc := { bad := [(70000, .single)], once := [] } }
    tile := up.tile.map fun (t : TileMem) =>
      { t with wb := .replicate 16 (some 3), ecc := { bad := [(3, .single), (4, .single)], once := [] } } }

theorem witness_BanksAndResults :
    (let e : EngId := 5
     let f : EngId := 7
     e ≠ f ∧ tileOf e = tileOf f ∧ (∀ w ∈ [(3, 2), (3, 3)], let s := requesting w.1 w.2
       s.eng[e].req = some { bank := 8, waited := w.1 } ∧ s.eng[f].req = some { bank := 8, waited := w.2 } ∧
       (w.2 < w.1 ∨ w.2 = w.1 ∧ e < f) ∧ ∀ k : EngId, k ≠ e → k ≠ f → s.eng[k].req = none)) ∧
    (∀ k : EngId, up.eng[k].req = none) ∧
    (let x : Flight := { unit := .row, left := 0, val := 9 }
     dueAll.eng[(19 : EngId)].flight = [x] ∧ x.left = 0) ∧
    dueAll.eng[(19 : EngId)].pHold = some 4 ∧ dueAll.eng[(19 : EngId)].dHold = some 70000 ∧
    dueAll.tile[(3 : TileId)].wb[(15 : Fin 16)] = some 3 ∧ (∀ k : EngId, dueAll.eng[k].req = none) ∧
    (let s := requesting 3 2
     ∃ r, s.eng[(5 : EngId)].req = some r ∧ r.bank = 8) := by decide +kernel

/-- Programs that ended well, ended with a fault bit, and have not ended; a FAULTED engine. -/
def ended : State :=
  { engines 0 with
    eng := vof fun (i : EngId) =>
      let x := (engines 0).eng[i]
      if i.val % 4 = 0 then { x with stopped := true }
      else if i.val % 4 = 1 then { x with stopped := true, flags := 4 }
      else if i.val % 4 = 2 then { x with st := .candidate }
      else { x with st := .faulted, grp := none } }

theorem witness_EngineRows :
    (ended.eng[(0 : EngId)].st = .live ∧ ended.eng[(0 : EngId)].clearing = false ∧ ended.eng[(0 : EngId)].stopped = true ∧
      ended.eng[(0 : EngId)].flags &&& 0x3F = 0) ∧
    (ended.eng[(1 : EngId)].st = .live ∧ ended.eng[(1 : EngId)].clearing = false ∧ ended.eng[(1 : EngId)].flags &&& 0x3F ≠ 0) ∧
    (ended.eng[(2 : EngId)].st = .candidate ∧ ended.eng[(2 : EngId)].clearing = false ∧ ended.eng[(2 : EngId)].stopped = false) ∧
    (ended.eng[(19 : EngId)].st = .faulted ∧ ended.eng[(19 : EngId)].grp = none) ∧
    (∀ n ∈ [1, 256], let s := { up with eng := up.eng.map fun (x : Engine) => { x with st := .test, bistLeft := n, bist := some true, bistBad := true } }
      s.eng[(19 : EngId)].st = .test ∧ (s.eng[(19 : EngId)].bistLeft = 1 ∨ 1 < s.eng[(19 : EngId)].bistLeft) ∧
        s.eng[(19 : EngId)].bist = some true ∧ s.evOn 0x8507 = true ∧ s.evRoom = true) ∧
    ended.eng[(19 : EngId)].pHold = none ∧ ended.eng[(19 : EngId)].holds = false := by decide +kernel

/-- An audition of a group on engine 6 that has run. -/
def ran : Audition := { Audition.default .host 6 true with waiting := false, ran := 100000 }

/-- Every group has the audition and an owner on engine 0; engine 6 is SPARE. -/
def auditions (a : Audition) : State :=
  { engines 0 with
    eng := vmod (engines 0).eng 6 fun x => { x with st := .spare, grp := none }
    grp := (engines 0).grp.map fun (g : Group) => { g with aud := some a, owner := some 0 } }

def waits : Restart := { prog := .empty, live := [(1, 2)], bank := true, tick := 3, tile := 1, down := false }

/-- Every group's audition waits for a start that is due now. -/
def starting : State :=
  { auditions { ran with waiting := true } with fw.sched := [{ due := .next, change := .audition 15 }] }

/-- A fault restart waits in group 15. -/
def restarts : State :=
  { engines 0 with
    clk.tick := 60
    eng := vmod (engines 0).eng 6 fun x => { x with st := .spare, grp := none }
    grp := vmod (engines 0).grp 15 fun g => { g with waiting := some waits } }

def fading : Crossfade := { outgoing := some 7, blocks := [1], tile := 1, k := 5, j := 5 }

theorem witness_AuditionRows :
    (let s := auditions { ran with confirm := false, cgroup := 0 }
     s.audOf 15 = some { ran with confirm := false, cgroup := 0 } ∧ ran.verdict = .running ∧ ran.n ≤ ran.ran ∧ ran.waiting = false) ∧
    (starting.audOf 15 = some { ran with waiting := true } ∧ starting.eng[(6 : EngId)].st = .spare ∧ ran.cand = 6 ∧
      starting.clk.tickRun = true ∧ starting.clk.cyc = 0 ∧ starting.startDue 15 = true ∧
      { starting with clk.cyc := 1 }.clk.cyc ≠ 0 ∧ (auditions { ran with waiting := true }).startDue 15 = false) ∧
    (restarts.audOf 15 = none ∧ restarts.sup.restarting = false ∧ restarts.grp[(15 : GrpId)].waiting = some waits ∧
      waits.prog.dl = [] ∧ restarts.fits waits.prog = true ∧ (restarts.clk.tick - waits.tick).toNat < 64 ∧ restarts.eng[(6 : EngId)].free = true ∧
      64 ≤ (({ restarts with clk.tick := 67 } : State).clk.tick - waits.tick).toNat) ∧
    (let a := { ran with verdict := .pass, confirm := true }
     (auditions a).audOf 15 = some a ∧ a.verdict = .pass ∧ a.confirm = true ∧ a.confirmed = false) ∧
    (let s := { engines 0 with grp := (engines 0).grp.map fun (g : Group) => { g with xf := some fading } }
     s.grp[(15 : GrpId)].xf = some fading ∧ fading.k ≤ fading.j ∧ s.clk.cyc = 0 ∧ { s with clk.cyc := 1 }.clk.cyc ≠ 0 ∧ fading.outgoing = some 7 ∧ s.eng[(7 : EngId)].faultDue = false ∧
       { s with eng := vmod s.eng 7 fun x => { x with faultDue := true } }.eng[(7 : EngId)].faultDue = true) ∧
    (let s := auditions { ran with verdict := .pass, confirm := false, cgroup := 15 }
     let u := { auditions { ran with verdict := .pass, confirm := false, cgroup := 15, joined := true } with boot.straps.role := 0, link.pos := some 3, link.joined := true }
     (15 : Fin 16) ≠ 0 ∧ s.cgroupReady 15 = true ∧ s.framed 15 = false ∧ s.others 15 = [] ∧ s.waitsFrame 15 = false ∧
       u.cgroupReady 15 = true ∧ u.framed 15 = false ∧ u.others 15 = [] ∧ u.waitsFrame 15 = true) ∧
    (let s := { engines 0 with grp := (engines 0).grp.map fun (g : Group) => { g with copying := true, owner := some 0 } }
     s.grp[(15 : GrpId)].copying = true ∧ s.grp[(15 : GrpId)].owner = some 0 ∧ s.audOf 15 = none ∧
       (∀ h ∈ s.fw.heldTune, h.1 ≠ 15)) ∧ { up with fw.migrHours := 168 }.fw.migrHours ≠ 0 ∧ up.sup.restarting = false := by decide +kernel

/-- Engines SPARE, handle 0 holds the program and handle 1 a spoilt one. -/
def spares : State :=
  { up with
    clk.mrate := .m48, clk.tick := 40, eng := up.eng.map fun (x : Engine) => { x with st := .spare }
    fw.handle := (up.fw.handle.set 0 (hnd .program obj)).set 1 (hnd .program (obj.set 66 9)) }

/-- Every group owned by engine 7. -/
def owned : State :=
  { spares with
    grp := spares.grp.map fun (g : Group) => { g with owner := some 7 }
    eng := vmod spares.eng 7 fun x => { liveEng 0 x with grp := some 3, bank := true } }

def passing : Audition :=
  { Audition.default .host 5 true with waiting := false, verdict := .pass, confirm := true, cgroup := 0 }

/-- Every group's candidate on engine 5 has passed and waits for the host. -/
def passed : State :=
  { owned with
    grp := owned.grp.map fun (g : Group) =>
      { g with aud := some passing } }

theorem some_bind {α β : Type} {o : Option α} {f : α → Option β} (h : (o.bind f).isSome = true) :
    ∃ a b, o = some a ∧ f a = some b := by
  cases o with
  | none => simp at h
  | some a => exact ⟨a, (f a).get h, rfl, by simp⟩

set_option maxRecDepth 100000 in
/-- The loader finds the object sound, and its lines room. -/
theorem object_loads : ∃ p u, loaded obj spares.clk.mrate.budget = some p ∧ loadLive 0 15 p spares = some u :=
  some_bind (by decide +kernel)

set_option maxRecDepth 100000 in
theorem spoilt_object : ∃ c a, checkObject (obj.set 66 9) spares.clk.mrate.budget = .bad c a := ⟨_, _, rfl⟩

set_option maxRecDepth 100000 in
theorem witness_EngCommands :
    (Asked 0x0501 8 4 [1, 15] spares (fun m => mword m 2 = wordN ((0 : Fin 8).val + 1) ∧ mword m 3 = wordN (15 : GrpId).val) ∧
      spares.object ((0 : Fin 8).val + 1) .program = some obj ∧
      spares.grp[(15 : GrpId)].owner = none ∧ spares.starting.contains 15 = false ∧ spares.directSpare = some 0 ∧
      spares.liveCount + spares.starting.length < 16) ∧
    (Asked 0x0501 8 4 [2, 15] spares (fun m => mword m 2 = wordN ((1 : Fin 8).val + 1) ∧ mword m 3 = wordN (15 : GrpId).val) ∧
      spares.object ((1 : Fin 8).val + 1) .program = some (obj.set 66 9)) ∧
    (Asked 0x0502 8 3 [15] owned (fun m => mword m 2 = wordN (15 : GrpId).val) ∧ owned.grp[(15 : GrpId)].owner ≠ none) ∧
    (Asked 0x0502 8 3 [15] up (fun m => mword m 2 = wordN (15 : GrpId).val) ∧ up.grp[(15 : GrpId)].owner = none) ∧
    (Asked 0x0503 14 3 [15, 0, 0, 0, 0, 0, 0, 0, 0, 0, 0, 0] owned (fun m => mword m 2 = wordN (15 : GrpId).val ∧
        (placeAudition 15 (audOfMsg m owned.link.tunnelled 5) (owned.eng[(7 : EngId)]).loading owned).isSome = true) ∧ owned.audOf 15 = none ∧
      owned.grp[(15 : GrpId)].owner = some 7 ∧ owned.tileSpare (tileOf 7) = some 5) ∧
    (Asked 0x0503 14 3 [15, 0, 0, 0, 0, 0, 0, 0, 0, 0, 0, 0] passed (fun m => mword m 2 = wordN (15 : GrpId).val) ∧
      passed.audOf 15 ≠ none) ∧
    (Asked 0x0504 8 3 [15] passed (fun m => mword m 2 = wordN (15 : GrpId).val) ∧
      passed.audOf 15 = some passing ∧ passing.verdict = .pass ∧ passing.confirm = true ∧ passing.confirmed = false ∧
        passing.cgroup = 0 ∧ passed.omits passing = false) ∧
    Asked 0x0505 8 3 [15] passed (fun m => mword m 2 = wordN (15 : GrpId).val) ∧
    Asked 0x0505 8 3 [15] owned (fun m => mword m 2 = wordN (15 : GrpId).val) := by decide +kernel

theorem witness_EngReports :
    (Asked 0x0506 8 3 [15] owned (fun m => mword m 2 = wordN (15 : GrpId).val) ∧ owned.grp[(15 : GrpId)].owner = some 7) ∧
    Asked 0x0507 8 3 [15] owned (fun m => mword m 2 = wordN (15 : GrpId).val) ∧
    (Asked 0x0508 8 3 [19] owned (fun m => mword m 2 = wordN (19 : EngId).val) ∧ owned.eng[(19 : EngId)].free = true) ∧
    (let s := { up with eng := up.eng.map fun (x : Engine) => { x with st := .test } }
     Asked 0x0508 8 3 [19] s (fun m => mword m 2 = wordN (19 : EngId).val ∧ s.eng[(19 : EngId)].st = .test)) ∧
    (Asked 0x0509 8 4 [15, 11] passed (fun m => mword m 2 = wordN (15 : GrpId).val ∧ mword m 3 = wordN (11 : Fin 12).val) ∧
      passed.grp[(15 : GrpId)].aud = some passing) := by decide +kernel

/-- Every group owned by the LIVE engine 7; handle 0 holds three words. -/
def tuned : State :=
  { engines 0 with
    grp := (engines 0).grp.map fun (g : Group) => { g with owner := some 7 }
    fw.handle := up.fw.handle.set 0 (hnd .batch [1, 2, 3, 4, 5, 6]) }

theorem witness_TuneCommands :
    (let g : GrpId := 15
     tuned.grp[g].owner = some 7 ∧ tuned.eng[(7 : EngId)].st = .live ∧ tuned.tuneClash g = false ∧ tuned.audOf g = none ∧
      (0 < 16384 ∧ 0 + 1 ≤ tuned.eng[(7 : EngId)].prog.pwsize) ∧ (42 < 16384 ∧ 42 + 22 ≤ tuned.eng[(7 : EngId)].prog.pwsize) ∧
      (38 < 16384 ∧ 38 + 26 ≤ tuned.eng[(7 : EngId)].prog.pwsize) ∧ tuned.grp[g].copying = false) ∧
    Asked 0x0601 (max 8 (4 + (1 + 1) / 2)) (4 + (1 + 1) / 2) [15, 1, 7] tuned
      (fun m => mword m 2 = wordN ((15 : GrpId).val + 65536 * 0) ∧ mword m 3 = wordN 1 ∧ fld (mword m (3 + (1 + 1) / 2)) 16 16 = 0) ∧
    Asked 0x0601 (max 8 (4 + (22 + 1) / 2)) (4 + (22 + 1) / 2) [15 + 65536 * 42, 22, 1, 2, 3, 4, 5, 6, 7, 8, 9, 10, 11] tuned
      (fun m => mword m 2 = wordN ((15 : GrpId).val + 65536 * 42) ∧ mword m 3 = wordN 22) ∧
    (let s := { tuned with grp := tuned.grp.map fun (g : Group) => { g with copying := true } }
     Asked 0x0601 (max 8 (4 + (1 + 1) / 2)) (4 + (1 + 1) / 2) [15, 1, 7] s (fun _ => s.grp[(15 : GrpId)].copying = true)) ∧
    (Asked 0x0602 8 5 [15, 0, 1] tuned (fun m => mword m 2 = wordN (15 : GrpId).val ∧ mword m 3 = wordN 0 ∧
        mword m 4 = wordN ((0 : Fin 8).val + 1)) ∧ tuned.object ((0 : Fin 8).val + 1) .batch = some [1, 2, 3, 4, 5, 6]) ∧
    Asked 0x0603 8 4 [15 + 65536 * 38, 26] tuned
      (fun m => mword m 2 = wordN ((15 : GrpId).val + 65536 * 38) ∧ mword m 3 = wordN 26) ∧
    Asked 0x0603 8 4 [15 + 2 ^ 31, 1] tuned
      (fun m => mword m 2 = wordN ((15 : GrpId).val + 65536 * 0 + 2 ^ 31) ∧ mword m 3 = wordN 1) ∧
    Asked 0x0604 8 3 [2 ^ 15] tuned (fun m => mword m 2 = wordN (2 ^ (15 : GrpId).val)) := by decide +kernel

/-! ### 09, 10: the power stage -/

/-- Every channel and every rail as given, on a device that is not quiet. -/
def power (f : Chan → Chan) (g : Rail → Rail) : State :=
  { up with
    sup.quiet := 0, clk.tick := 100000, pcd.quiet := false, pcd.ch := up.pcd.ch.map f, pcd.rail := up.pcd.rail.map g }

def inSt (st : ChState) : State := power (fun c => { c with st := st }) id

/-- Supervised channels in RUN. -/
def running : State := power (fun c => { c with st := .run, gch := .at 1, lsupIn := true, zSig := some (4000, 10), zNow := (4100, 5) }) id

theorem witness_PwrCommands :
    (∀ v ∈ [10, 600], Asked 0x0701 8 4 [0x40 + 256 * 15, v] up (fun m => mword m 2 = wordN (0x40 + 256 * (15 : ChanId).val) ∧
      10 ≤ (mword m 3).toNat ∧ (mword m 3).toNat ≤ 600 ∧ up.pcd.ch[(15 : ChanId)].st = .off)) ∧
    Asked 0x0701 8 4 [0x40 + 256 * 15, 10] running (fun m => mword m 2 = wordN (0x40 + 256 * (15 : ChanId).val) ∧
      10 ≤ (mword m 3).toNat ∧ (mword m 3).toNat ≤ 600 ∧ running.pcd.ch[(15 : ChanId)].st ≠ .off) ∧
    (∀ v ∈ [4, 20], Asked 0x0701 8 4 [0x46 + 256 * 3, v] up (fun m => mword m 2 = wordN (0x46 + 256 * (3 : RailId).val) ∧
      4 ≤ (mword m 3).toNat ∧ (mword m 3).toNat ≤ 20)) ∧
    (0x40 ≤ 0x40 ∧ 15 < (settingScope 0x40).2 ∧ Asked 0x0702 8 3 [0x40 + 256 * 15] up (fun m => mword m 2 = wordN (0x40 + 256 * 15))) ∧
    (0x50 ≤ 0x50 ∧ 0 < (settingScope 0x50).2 ∧ Asked 0x0702 8 3 [0x50] up (fun m => mword m 2 = wordN (0x50 + 256 * 0))) ∧
    (Asked 0x0703 8 3 [2 ^ 15] up (fun m => mword m 2 = wordN (2 ^ (15 : ChanId).val)) ∧
      (inSt .diagFail).pcd.ch[(15 : ChanId)].st = .diagFail ∧ (inSt .locked).pcd.ch[(15 : ChanId)].st = .locked) ∧
    (Asked 0x0704 8 3 [2 ^ 15] running (fun m => mword m 2 = wordN (2 ^ (15 : ChanId).val)) ∧
      running.pcd.ch[(15 : ChanId)].st = .run ∧ running.pcd.ch[(15 : ChanId)].stopWhy = none) ∧
    (∀ st ∈ [ChState.tripped, .diag, .hot, .railWait, .railLatch, .rampUp],
      Asked 0x0703 8 3 [2 ^ 15] (inSt st) (fun m => mword m 2 = wordN (2 ^ (15 : ChanId).val)) ∧
        (inSt st).pcd.ch[(15 : ChanId)].st = st) ∧
    (Asked 0x0704 8 3 [2 ^ 15] (inSt .tripped) (fun m => mword m 2 = wordN (2 ^ (15 : ChanId).val)) ∧
      (inSt .tripped).pcd.ch[(15 : ChanId)].st.isQuiet = true) ∧
    (Asked 0x0705 8 3 [2 ^ 15] running (fun m => mword m 2 = wordN (2 ^ (15 : ChanId).val)) ∧
      running.pcd.ch[(15 : ChanId)].lsupIn = true) ∧
    Asked 0x0705 8 3 [2 ^ 15] up (fun m => mword m 2 = wordN (2 ^ (15 : ChanId).val) ∧ up.pcd.ch[(15 : ChanId)].st ≠ .run) ∧
    (Asked 0x0706 8 3 [15] running (fun m => mword m 2 = wordN (15 : ChanId).val) ∧
      running.pcd.ch[(15 : ChanId)].zSig = some (4000, 10) ∧ running.pcd.ch[(15 : ChanId)].ntcBad = false) ∧
    Asked 0x0707 8 3 [8] (inSt .railLatch) (fun m => mword m 2 = wordN (2 ^ (3 : RailId).val)) ∧
    Asked 0x0708 8 3 [2 ^ 15] up (fun m => mword m 2 = wordN (2 ^ (15 : ChanId).val) ∧ up.pcd.ch[(15 : ChanId)].st = .off) ∧
    Asked 0x0708 8 3 [2 ^ 15] running (fun m => mword m 2 = wordN (2 ^ (15 : ChanId).val) ∧
      running.pcd.ch[(15 : ChanId)].st ≠ .off) := by decide +kernel

/-- Seven limited periods in a row, and an eighth; a trip of 60 s and one of 1 s ago. -/
def limited : State :=
  power (fun c => { c with
    st := .run, limNow := some (true, false), limited := List.replicate 7 true, trips := [up.clk.now, 1] }) id

theorem witness_Modulator :
    (let c : ChanId := 15
     (up.pcd.ch[c].st.switching = false ∧ up.pcd.ch[c].limNow = none ∧ up.pcd.ch[c].mid = none) ∧
     (running.pcd.ch[c].st = .run ∧ running.pcd.ch[c].limNow = none ∧ running.pcd.ch[c].mid = none ∧ running.pcd.streamLost = false) ∧
     (let s := power (fun x => { x with st := .run, mid := some 1 }) id
      s.pcd.ch[c].mid = some 1 ∧ (1500 : BitVec 12) ≠ 4095 ∧ 7 ≤ Rail.meas { s.pcd.rail[railOf c] with code := 1500 } ∧
        Rail.meas { s.pcd.rail[railOf c] with code := 1500 } ≤ 64) ∧
     ((inSt .rampUp).pcd.ch[c].st = .rampUp ∧ (inSt .rampUp).pcd.ch[c].limNow = none ∧ (inSt .rampUp).pcd.ch[c].mid = none) ∧
     (limited.pcd.ch[c].st.switching = true ∧ limited.pcd.ch[c].limNow = some (true, false) ∧ limited.pcd.ch[c].mid = none ∧ limited.pcd.ch[c].tripNow = false ∧
       7 ≤ limited.pcd.ch[c].limited.length ∧ (limited.pcd.ch[c].limited.take 7).all id = true) ∧
     (let s := power (fun x => { x with st := .run, ilimIn := 50 }) id
      s.pcd.ch[c].st.switching = true ∧ s.pcd.ch[c].limNow = none ∧ 1000 * s.pcd.ch[c].ilimIn ≤ (-50000 : Int).natAbs ∧
        (49999 : Int).natAbs < 1000 * s.pcd.ch[c].ilimIn) ∧
     (running.pcd.watch ≤ 2 ∧ 1 < running.pcd.watch ∧ { up with pcd.streamLost := true }.pcd.streamLost = true)) := by decide +kernel

def rails (g : Rail → Rail) : State := power id g

/-- A boost controller that ran out at BILIM, with no feedback. -/
def starved : State :=
  { rails fun x => { x with mode := .track, bg := true, atLimit := true, code := 0, fbRun := 1412, ovlRun := 706 } with pcd.vbatsMv := 14400 }

theorem witness_Rails :
    (let r : RailId := 3
     ((1500 : BitVec 12) ≠ 4095 ∧ 7 ≤ Rail.meas { up.pcd.rail[r] with code := 1500 } ∧
       Rail.meas { up.pcd.rail[r] with code := 1500 } ≤ 64 ∧ ∀ c : ChanId, up.pcd.ch[c].mid = none) ∧
     (∀ n ∈ [7, 8], let s := rails fun x => { x with overRun := n }
       7 ≤ s.pcd.rail[r].overRun ∧ s.pcd.rail[r].latched = false) ∧
     (let s := rails fun x => { x with overRun := 7, latched := true }
      s.pcd.rail[r].overRun = 7 ∧ s.pcd.rail[r].latched = true) ∧
     (∀ n ∈ [63, 64], let s := { running with pcd.rail := up.pcd.rail.map fun (x : Rail) => { x with underRun := n } }
       63 ≤ s.pcd.rail[r].underRun ∧ (∀ c : ChanId, s.pcd.ch[c].st.switching = true ∧ railOf 15 = r)) ∧
     (let s := { power (fun c => { c with st := .tripped, tripNow := true }) (fun x => { x with underRun := 64 }) with sup.quiet := 0 }
      63 ≤ s.pcd.rail[r].underRun ∧ ∀ c : ChanId, s.pcd.ch[c].st.switching = false ∧ s.pcd.ch[c].mid = none ∧
        s.pcd.ch[c].tripNow = true ∧ (s.pcd.ch[c].st = .tripped ∨ s.pcd.ch[c].st = .locked)) ∧
     (let s := { inSt .railWait with pcd.rail := up.pcd.rail.map fun (x : Rail) => { x with code := 3000, upRun := 141120 } }
      s.readings 100 ≤ s.pcd.rail[r].upRun ∧ s.pcdHeld = false ∧ s.pcd.ch[(15 : ChanId)].st = .railWait ∧
        up.pcd.rail[r].upRun < up.readings 100) ∧
     (starved.readings 1 ≤ starved.pcd.rail[r].fbRun ∧ starved.halfRate ≤ 1000 * starved.pcd.rail[r].ovlRun ∧
        starved.pcd.rail[r].ovlNext ≤ starved.clk.now) ∧
     (let s := rails fun x => { x with mode := .fixed, idle := false }
      s.pcd.rail[r].mode = .fixed ∧ s.pcd.rail[r].idle = false) ∧
     (rails fun x => { x with idle := true }).pcd.rail[r].idle = true ∧
     (rails fun x => { x with mode := .pass }).pcd.rail[r].mode = .pass) := by decide +kernel

def loadOk : DiagVals := { gndA := 100000, gndB := 100000, supA := 100000, supB := 100000, load := 40 }

/-- Channels that were running when the supply fell. -/
def unsupplied : State := { power (fun c => { c with wasRun := true, gdc := .at 0 }) id with pcd.supplyLow := true }

theorem witness_Protection :
    (let c : ChanId := 15
     ((inSt .diag).pcd.ch[c].st = .diag ∧ (inSt .diag).pcd.ch[c].retrying = false ∧
       loadClass loadOk = 6 ∧ loadClass .zero ≠ 6 ∧ (inSt .diag).pcdHeld = false) ∧
     (let s := power (fun x => { x with st := .off, diagOnly := true }) id
      s.pcd.ch[c].st = .off ∧ s.pcd.ch[c].diagOnly = true) ∧
     (let s := power (fun x => { x with st := .diag, retrying := true }) id
      s.pcd.ch[c].st = .diag ∧ s.pcd.ch[c].retrying = true) ∧
     (inSt .tripped).pcd.ch[c].st = .tripped ∧ running.pcd.ch[c].st.switching = true ∧
     (let s := power (fun x => { x with gdc := .at 1, dcHigh := second }) id
      s.pcd.ch[c].gdc.goal = 1 ∧ 0 ≤ s.pcd.ch[c].gdc.v ∧ second ≤ s.pcd.ch[c].dcHigh) ∧ up.pcd.ch[c].dcHigh < second ∧
     (let s := power (fun x => { x with dcUntil := 1 }) id
      s.clk.now < s.pcd.ch[c].dcUntil) ∧
     (let s := power (fun x => { x with dcOpen := true, dcUntil := 0 }) id
      s.pcd.ch[c].dcOpen = true ∧ s.pcd.ch[c].dcUntil ≤ s.clk.now) ∧
     (let s := power (fun x => { x with gdc := .at 0, dcLow := second }) id
      s.pcd.ch[c].gdc.goal = 0 ∧ s.pcd.ch[c].gdc.v ≤ 1 ∧ second ≤ s.pcd.ch[c].dcLow) ∧
     (up.pcd.ch[c].ntcBad = false ∧ (-500 : Int) ≤ -500 ∧ (1700 : Int) ≤ 1700 ∧ (-501 : Int) < -500 ∧ (1700 : Int) < 1701) ∧
     (running.pcd.ch[c].st = .run ∧ running.pcd.ch[c].stopWhy = none ∧
       ∀ y ∈ (2000 :: running.pcd.pcdT).take 8, running.pcd.tStopDie * 10 ≤ y) ∧
     (running.pcd.ch[c].lsupIn = true ∧ running.pcd.ch[c].winBad = false ∧ running.clk.mrate.cycles ≠ 8192) ∧
     (let s := { power (fun x => { x with st := .run, lsupIn := true, winBad := true }) id with clk.mrate := .m96 }
      s.pcd.ch[c].st = .run ∧ s.pcd.ch[c].lsupIn = true ∧ s.pcd.ch[c].winBad = true ∧ s.clk.mrate.cycles = 8192) ∧
     (let s := power (fun x => { x with st := .run, lsupIn := true }) id
      s.pcd.ch[c].learning = false ∧ s.pcd.ch[c].zSig = none) ∧
     (∀ n ∈ [8, 9], let s := power (fun x => { x with st := .run, lsupIn := true, learning := true, learn := List.replicate n (4000, 1) }) id
       s.pcd.ch[c].learning = true ∧ (s.pcd.ch[c].learn.length < 9 ∨ s.pcd.ch[c].learn.length = 9)) ∧
     (unsupplied.pcd.supplyLow = true ∧ unsupplied.sup.quiet = 0 ∧ unsupplied.pcd.ch[c].wasRun = true ∧
       unsupplied.pcd.ch[c].st = .off) ∧ up.pcd.muteHigh ≠ false) := by decide +kernel

/-- Table 10.1's classes: 0 to ground, 1 to supply, 2 short, 5 high, 4 open, 6 in range. -/
theorem test_load_classes :
    [{ loadOk with gndA := 199 }, { loadOk with supB := 199 }, { loadOk with load := 14 }, { loadOk with load := 641 },
      { loadOk with load := 2001 }, { loadOk with load := 20 }, { loadOk with load := 640 }].map loadClass
      = [0, 1, 2, 5, 4, 6, 6] := by decide +kernel

/-! ### 12: the ridge link -/

/-- A lane with both locks, and one to which only the second marker is missing. -/
def lockedLane : LaneRx := { run := 64, seen := .replicate 64 true, block := true, age := some 0, frame := true, miss := false }
def nearLane : LaneRx := { lockedLane with frame := false, age := some 1023 }

/-- Sync headers on both lanes: the second marker, 16 invalid ones, and one with no marker. -/
def marker : Vector (List (BitVec 2)) 2 := .replicate 2 [2]
def noise : Vector (List (BitVec 2)) 2 := .replicate 2 (List.replicate 16 0)
def quietHeads : Vector (List (BitVec 2)) 2 := .replicate 2 [1]

/-- What a device has free when nothing is taken. -/
def allFree : DevFree := { groups := 0xFFFF, engs := 0xFFFFF, tx := .allOnes 64, taps := .allOnes 128, taken := .replicate 4 [] }

/-- A member of a ring at position 3 with every port up. -/
def ring : State :=
  { up with
    boot.straps.role := 0, boot.serial := 0, link.pos := some 3, clk.frame := 1000, link.joined := true
    link.ports := up.link.ports.map fun (p : RPort) =>
      { p with up := true, lanes := .replicate 2 true, losGpio := some 5, tdist := 3, rx := .replicate 2 lockedLane } }

def members : List Member :=
  [{ pos := 0, serial := 11, beacon := 2, free := allFree }, { pos := 3, serial := 0, beacon := 7, free := allFree },
    { pos := 31, serial := 99, beacon := 2, free := allFree }]

/-- The active manager of a segment of three. -/
def manager : State :=
  { ring with link.active := true, link.members := members, link.grants := [(3, 5), (3, 6), (31, 9)], link.mgrPos := 3 }

def route : Route := { id := 7, src := 1, sink := 2, bound := 100, lat := 10, elems := [], broken := true }

/-- The manager of the summit, with a broken route: SPUR's lane 1 is up and lane 0 is not. -/
def summitDev : State :=
  { manager with
    boot.straps.role := 1, link.routes := [route]
    link.ports := manager.link.ports.set 2 { manager.link.ports[2] with lanes := #v[false, true] } }

/-- A worker. -/
def worker : State := { ring with link.members := members, clk.actSrc := some .ridge }

/-- The ports of a member, down, each a marker short of its locks; and held down by a module and by a lane test. -/
def cutOff : State := { worker with link.ports := up.link.ports.map fun (p : RPort) => { p with rx := .replicate 2 nearLane } }
def heldDown : State := { cutOff with link.ports := cutOff.link.ports.map fun (p : RPort) => { p with los := true, prbs := some 0 } }

/-- One path left, on WEST. -/
def onePath : State := { worker with link.ports := worker.link.ports.set 0 { worker.link.ports[0] with tdist := 255 } }

/-- CLK_SET of MRATE with AT on the active manager of a segment of three. -/
theorem witness_TimedAndForwarded_rate :
    (let m := mkMsg 0 [0x2000201, 3000, 0x21, 2]
     serves manager = true ∧ m.box = 0 ∧ cmdOf m = clkSetCmd.code ∧ manager.fw.q[0].length < 32 ∧ clkSetCmd.len m ≤ m.len.toNat ∧
       clkSetCmd.timed = true ∧ fld m.w[0] 24 8 = 2 ∧ (clkSetCmd.check manager m).isNone = true ∧ manager.standalone = false ∧
       manager.link.pos ≠ none ∧ 16 ≤ (mword m 1 - manager.clk.frame).toInt ∧ manager.spreads clkSetCmd m = true ∧
       (sendFail clkSetCmd m 1 true manager).isNone = true ∧
       (clkSetCmd.act m (some (mword m 1)) manager).fw.sched.length ≠ manager.fw.sched.length) := by decide +kernel

/-- A directory record reads back, and one with a byte changed is not valid (R405). -/
theorem test_dir_record : dirOf dir0.bytes = some dir0 ∧ dirOf (dir0.bytes.set 12 0) = none := by decide +kernel

theorem witness_LinkCommands :
    Asked 0x0801 8 2 [] manager (fun _ => True) ∧
    (∀ n ∈ [1, 64], Asked 0x0802 8 5 [31, 100, n] manager (fun m => mword m 2 = wordN (31 : Fin 32).val ∧ mword m 3 = wordN 100 ∧
      mword m 4 = wordN n ∧ manager.member = true ∧ manager.link.active = true ∧ 1 ≤ n ∧ n ≤ 64 ∧
      100 + n ≤ manager.linkChannels 0 ∧ ∀ g ∈ manager.link.grants, g.2 < 100 ∨ 100 + n ≤ g.2)) ∧
    Asked 0x0802 8 5 [31, 9, 1] manager (fun m => mword m 2 = wordN (31 : Fin 32).val ∧ mword m 3 = wordN 9 ∧ mword m 4 = wordN 1 ∧
      ∃ g ∈ manager.link.grants, 9 ≤ g.2 ∧ g.2 < 9 + 1) ∧
    Asked 0x0802 8 5 [31, 895, 1] worker (fun m => mword m 2 = wordN (31 : Fin 32).val ∧ mword m 3 = wordN 895 ∧
      mword m 4 = 1 ∧ worker.link.active = false) ∧
    (manager.standalone = false ∧ manager.link.grantsAll = true ∧ manager.link.pos = some 3 ∧ 5 < manager.linkChannels 0 ∧ manager.chanTaken 63 0 5 = false ∧
      ((3 : Fin 32).val, 5) ∈ manager.link.grants ∧ Asked 0x0803 8 4 [63, 5] manager (fun m => mword m 2 = wordN (63 : Fin 64).val ∧
        mword m 3 = wordN 5)) ∧
    (manager.chanTaken 63 0 9 = false ∧ (∀ g ∈ manager.link.grants, g ≠ ((3 : Fin 32).val, 9)) ∧
      Asked 0x0803 8 4 [63, 9] manager (fun m => mword m 2 = wordN (63 : Fin 64).val ∧ mword m 3 = wordN 9)) ∧
    Asked 0x0803 8 4 [63 + 2 ^ 15, 0] manager (fun m => mword m 2 = wordN ((63 : Fin 64).val + 2 ^ 15) ∧ mword m 3 = wordN 0) ∧
    Asked 0x0804 8 5 [127, 0, 31] worker (fun m => mword m 2 = wordN (127 : Fin 128).val ∧ mword m 3 = wordN 0 ∧
      mword m 4 = wordN (31 : Fin 32).val ∧ worker.standalone = false ∧ worker.link.pos ≠ none ∧ 0 < worker.linkChannels 0) ∧
    Asked 0x0804 8 5 [127, 895, 31] up (fun m => mword m 2 = wordN (127 : Fin 128).val ∧ mword m 3 = wordN 895 ∧
      mword m 4 = wordN (31 : Fin 32).val ∧ up.standalone = true) ∧
    (Asked 0x0805 8 8 [0, 31, 0xFFFFFF0F, 0xFFFFFFFF, 0xFFFFFFFF, 0xFFFFFFFF] manager (fun m =>
        mword m 2 = wordN (0 : Fin 32).val ∧ mword m 3 = wordN (31 : Fin 32).val ∧ pairTwice m = false ∧
        ∀ k : Fin 16, twinByte m k.val < 16 ∨ twinByte m k.val = 255) ∧
      manager.hasMember 0 = true ∧ manager.hasMember 31 = true ∧ manager.link.twins.isEmpty = true) ∧
    (let s := { worker with link.twins := [{ a := 0, b := 31, pair := .replicate 16 none }] }
     Asked 0x0806 8 3 [0] s (fun m => mword m 2 = wordN (0 : Fin 32).val ∧ ∃ t ∈ s.link.twins, t.a = (0 : Fin 32).val)) ∧
    (let words := fun m : Msg => mword m 2 = wordN (0 + 65536 * (3 : Fin 32).val + 2 ^ 24 * (0 : Fin 8).val) ∧
       mword m 3 = wordN ((127 : Fin 128).val + 65536 * (31 : Fin 32).val + 2 ^ 24 * (0 : Fin 8).val) ∧ mword m 4 = wordN 65535
     Asked 0x0807 8 5 [65536 * 3, 127 + 65536 * 31, 65535] summitDev words ∧ summitDev.summit = true ∧
       0 < summitDev.linkChannels 0 ∧ (summitDev.admits 0 3 0 127 31 0 65535).isSome = true) ∧
    (Asked 0x0807 8 5 [65536 * 3, 127 + 65536 * 31, 1] summitDev (fun m => mword m 4 = wordN 1) ∧
       (summitDev.admits 0 3 0 127 31 0 1).isNone = true) ∧
    (∀ b : Bool, let s := { manager with link.consist := b, link.segid := 2 }
     Asked 0x0807 8 5 [65536 * 3, 127 + 65536 * 31 + 2 ^ 25, 65535] s (fun m => mword m 2 = wordN (0 + 65536 * (3 : Fin 32).val + 2 ^ 24 * (0 : Fin 8).val) ∧
       mword m 3 = wordN ((127 : Fin 128).val + 65536 * (31 : Fin 32).val + 2 ^ 24 * (2 : Fin 8).val) ∧ mword m 4 = wordN 65535) ∧
       s.asksFor (2 : Fin 8).val = b ∧ s.summit = false ∧ 0 < s.linkChannels 0) ∧
    Asked 0x0808 8 3 [7] summitDev (fun m => mword m 2 = wordN (7 : BitVec 12).toNat ∧
      ∃ r ∈ summitDev.link.routes, r.id = (7 : BitVec 12).toNat) ∧
    (let s := { ring with link.members := [] }
     Asked 0x0809 8 3 [1 + 16 + 256] s (fun m => mword m 2 = wordN ((1 : Fin 2).val + 16 * (1 : Fin 2).val + 256) ∧
       s.standalone = false ∧ s.hasBreak = false ∧ (s.link.ports[(1 : RidgeId)]).prbs = none ∧
       (s.clk.actSrc ≠ some .ridge ∧ s.clk.qual.contains .ridge = false))) ∧
    (let s := { ring with link.ports := ring.link.ports.map fun (p : RPort) => { p with prbs := some 1 } }
     Asked 0x0809 8 3 [1] s (fun m => mword m 2 = wordN (1 : RidgeId).val ∧ (s.link.ports[(1 : RidgeId)]).prbs ≠ none)) ∧
    Asked 0x080A 8 4 [2, 15] up (fun m => mword m 2 = wordN (2 : RidgeId).val ∧ mword m 3 = wordN (15 : Fin 16).val) ∧
    (let m := ask (0x101 + 4 * 2 ^ 24 + 31 * 2 ^ 27) []
     cmdOf m = sysInfoCmd.code ∧ m.box = 0 ∧ manager.fw.q[0].length < 32 ∧ sysInfoCmd.len m ≤ m.len.toNat ∧ mword m 1 = 0 ∧
       fld m.w[0] 24 3 = 4 ∧ manager.link.pos ≠ some (destOf m) ∧ manager.twinOf (destOf m).val = none ∧
       (sysInfoCmd.sends manager m).isNone = true ∧ sysInfoCmd.code ≠ 0x0503 ∧ sysInfoCmd.code ≠ 0x0504) := by decide +kernel

/-- A graph object of one module and a connection, its module of device number `pin` where bit 7 is set. -/
def graphOf (pin : Nat) : List Byte :=
  wordBytes ([0x48505247, 1, 2, 52, obj.length, pin, 0, 0, 0x80000005 + 3 * 65536, 16384, 1, 0x80000007 + 31 * 65536, 100].map wordN)
    ++ obj

/-- The manager with SPARE engines, handle 7 holding the graph. -/
def grapher (l : List Byte) : State :=
  { manager with
    fw.handle := up.fw.handle.set 7 (hnd .graph l), eng := up.eng.map fun (x : Engine) => { x with st := .spare } }

def graphPlan0 : GraphPlan :=
  { map := [], cgroup := 1, mods := [(31, 4, 5)], xps := [], tx := [], taps := [], grants := [], inv := [] }

/-- Whether the planned graph has room here, and whether some module of it is elsewhere. -/
def planned (l : List Byte) (s : State) : Option (Bool × Bool) :=
  (s.freeCgroup.bind fun n => planGraph l n s.clk.mrate.budget (s.linkChannels 0) s.link.grants s.inventoryFree).map fun x =>
    ((placePlan l x.plan.cgroup ((List.range x.plan.mods.length).zip x.plan.mods) s).isSome,
      x.plan.mods.any fun y => !s.isMe y.1.val)

set_option maxRecDepth 100000 in
theorem witness_GraphCommands :
    (∀ x ∈ [(131, false), (159, true)], let s := grapher (graphOf x.1)
     Asked 0x0901 8 3 [8] s (fun m => mword m 2 = wordN ((7 : Fin 8).val + 1)) ∧
       s.object ((7 : Fin 8).val + 1) .graph = some (graphOf x.1) ∧
       (firstOf (graphFails (graphOf x.1) s.clk.mrate.budget)).isNone = true ∧ s.link.pos ≠ none ∧ s.member = true ∧
       s.link.active = true ∧ planned (graphOf x.1) s = some (true, x.2)) ∧
    (let s := { grapher (graphOf 131) with eng := up.eng }
     Asked 0x0901 8 3 [8] s (fun m => mword m 2 = wordN ((7 : Fin 8).val + 1)) ∧ planned (graphOf 131) s = none) ∧
    (let s := { grapher (graphOf 131) with link.active := false }
     Asked 0x0901 8 3 [8] s (fun m => mword m 2 = wordN ((7 : Fin 8).val + 1) ∧ s.link.active = false)) ∧
    (let s := { grapher (graphOf 131) with link.graph := some graphPlan0 }
     Asked 0x0902 8 2 [] s (fun _ => s.link.graph ≠ none)) ∧
    Asked 0x0902 8 2 [] (grapher (graphOf 131)) (fun _ => (grapher (graphOf 131)).link.graph = none) := by decide +kernel

def ringDev (serial : Nat) (role : BitVec 2) : RingDev :=
  { serial := BitVec.ofNat 64 serial, role := role, pairId := false, counter := 5, asked := none, placed := true, delay := 20, free := allFree }

def tap : Tap :=
  { link := 0, chan := 5, owner := 2, segid := 0, west := true, val := 9, missing := 0, arrived := 70, fade := .at 1, queue := [],
    route := none }

/-- A standby of which nothing has been heard for 8 frames on either port. -/
def standbyDev : State :=
  { worker with
    link.standby := true, link.ports := worker.link.ports.map fun (p : RPort) => { p with stale := 8 } }

theorem witness_LinkRows_ports :
    (∀ s ∈ [worker, onePath], s.standalone = false ∧ (s.link.ports[(1 : RidgeId)]).up = true ∧
      (hear 1 0 noise s).portLocked 1 0 = false ∧ s.clk.actSrc = some .ridge ∧ (hear 1 0 quietHeads s).portLocked 1 0 = true) ∧
    ((worker.link.ports[(0 : RidgeId)]).dist ≠ 255 ∧ ∀ k : RidgeId, k ≠ 2 → k ≠ 1 → (onePath.link.ports[k]).dist = 255) ∧
    (∀ p : RidgeId, p ≠ 2 → (cutOff.link.ports[p]).up = false ∧ (hear p 0 marker cutOff).portLocked p 0 = true ∧
      (cutOff.link.ports[p]).los = false ∧ (cutOff.link.ports[p]).prbs = none ∧
      (hear p 0 quietHeads cutOff).portLocked p 0 = false ∧ (heldDown.link.ports[p]).los = true ∧
      (heldDown.link.ports[p]).prbs ≠ none ∧ (ring.link.ports[p]).losGpio ≠ none) ∧
    cutOff.standalone = false ∧ heldDown.standalone = false ∧ cutOff.member = true ∧
    (ring.link.ports[(2 : RidgeId)]).losGpio ≠ none := by decide +kernel

theorem witness_LinkRows_segment :
    (worker.clk.actSrc = some .ridge ∧ worker.clk.hold = false ∧ worker.clk.realign = .none ∧
      { worker with clk.realign := .fadeOut 0 5 1 }.clk.realign = .fadeOut 0 5 1) ∧
    ((formConflict summitDev.coreHz [ringDev 7 1, ringDev 0 1]).isSome = true ∧ summitDev.managerRole = true ∧
      summitDev.evOn 0x8804 = true ∧ summitDev.evRoom = true) ∧
    ((formConflict worker.coreHz [ringDev 7 1, ringDev 0 0]).isNone = true ∧ (formManager [ringDev 7 1, ringDev 0 0]).isSome = true ∧
      (formManager [ringDev 7 1, ringDev 0 0]).map (·.serial) ≠ some worker.boot.serial ∧
      (formManager [ringDev 0 1, ringDev 7 0]).map (·.serial) = some worker.boot.serial) := by decide +kernel

theorem witness_LinkRows_failover :
    (standbyDev.standalone = false ∧ standbyDev.link.standby = true ∧ standbyDev.link.active = false ∧ standbyDev.mgrFailed = true ∧
      standbyDev.clk.actSrc = some .ridge ∧ { standbyDev with clk.actSrc := none }.clk.actSrc ≠ some .ridge ∧
      ring.mgrFailed = false) ∧
    (let s := { worker with clk.hold := true, clk.holdIn := 0, clk.lostSrc := some .ridge, link.taps := .replicate 128 (some tap) }
     s.limitDue = true ∧ s.clk.lostSrc = some .ridge ∧ s.link.taps[(127 : Fin 128)] = some tap) ∧
    worker.limitDue = false ∧ { worker with clk.hold := true, clk.lostSrc := some .refclk }.clk.lostSrc = some .refclk := by
  decide +kernel

/-- Blocks of 33 on each lane that carry a frame from an all-zero scrambler. -/
def onLine (p : RidgeId) (x : LinkTx) : RxLink :=
  { port := p, lane := 0, delay := 20, joins := none, prev := .replicate 2 0
    blocks := vof fun l => lineBlocks true 0 ((List.range 33).map (x.payload (decide (p = 2)) l)) }

/-- A frame of origin o, with the manager at position 9, a tunnelled message of 9 words for position 3 and MBI2, channel 1 as audio
and a right CRC or none. -/
def frame (p : RidgeId) (ok : Bool) (o : Fin 32) : RxLink :=
  let c := overlay (List.replicate 128 0) ([(0, wordN (1 + o.val <<< 10)), (1, 1005), (2, 5), (4, 4 <<< 24),
    (5, wordN (9 + 10 <<< 5 + 2 <<< 12 + 4 <<< 16)), (8, tunnelHead 3 { ask 0x101 [] with box := 2, len := 9 } 6), (9, 0x101),
    (101, 0x42), (124, 0x200)])
  onLine p { frame := 1005, orig := false, ctl := if ok then c.set 127 (ctlCrc c) else c, audio := [(1, 0x1234)] }

set_option maxRecDepth 100000 in
/-- What the blocks of a frame say is what was put in. -/
theorem test_frame_read :
    (let f := RxLink.frame (frame 1 true 5)
     f.ok = true ∧ f.origin = 5 ∧ f.number = 1005 ∧ f.tdist = 4 ∧ f.mgrPos = 9 ∧ f.mgrHere = true ∧ f.tdn.valid = true ∧
       f.tdn.mbox = 2 ∧ f.tdn.len = 9 ∧ f.tdn.tseq = 6 ∧ f.audio.take 2 = [(0, 0), (1, 0x1234)]) ∧
    (RxLink.frame (frame 1 false 5)).ok = false := by decide +kernel

set_option maxRecDepth 100000 in
theorem witness_LinkFrames :
    (let s := { ring with link.joined := false }
     ∀ p : RidgeId, p ≠ 2 → let r := frame p false 0
       s.standalone = false ∧ (RxLink.frame r).ok = false ∧ (s.link.ports[(RxLink.frame r).port]).up = true ∧ s.member = false ∧
         (RxLink.frame r).port = p ∧ (hear r.port r.lane (vmap (fun l => l.map (·.1)) r.blocks) s).portLocked r.port r.lane = true) ∧
    ([(0, 0), (0, 3), (1, 0), (1, 3)].all fun x => let r := frame x.1 true x.2
      let f := RxLink.frame r
      f.port ≠ 2 ∧ (worker.link.ports[f.port]).up = true ∧ f.ok = true ∧ f.admission.valid = false ∧ f.tdist ≠ 255 ∧
      worker.link.active = false ∧ f.mgrHere = true ∧ worker.member = true ∧ worker.link.left = false ∧ f.tdn.valid = true ∧
      worker.link.pos = some f.tdn.dest ∧ worker.link.tunnelAck = none ∧ (worker.host.mbi[f.tdn.mbox]).go = false ∧
      8 ≤ f.tdn.len.toNat ∧ f.tdn.len.toNat ≤ 16 ∧ worker.sentOwn 0 f.number = false ∧ worker.sentOwn 1 f.number = false ∧
      (worker.link.ports[(0 : RidgeId)]).broken = false ∧ (worker.link.ports[(1 : RidgeId)]).broken = false ∧
      (hear r.port r.lane (vmap (fun l => l.map (·.1)) r.blocks) worker).portLocked r.port r.lane = true ∧
      (f.origin.val = worker.originPos ∨ f.origin.val ≠ worker.originPos)) = true ∧
    (let s := { worker with link.sent := .replicate 4 ({ frame := 1005, orig := true, ctl := [], audio := [] } : LinkTx) }
     [0, 5].all fun o => let f := RxLink.frame (frame 1 true o)
       decide (s.member = true) && decide (f.port = 1) && decide (f.origin.val ≠ s.originPos) && s.sentOwn 0 f.number) = true ∧
    worker.originPos = 3 ∧ worker.sup.restarting = false ∧ { worker with sup.restarting := true }.sup.restarting = true ∧ { worker with link.left := true }.link.left = true ∧
    { worker with link.tunnelAck := some (6, 0) }.link.tunnelAck = some ((RxLink.frame (frame 0 true 0)).tdn.tseq, 0) ∧
    (let s := { worker with fw.twinOn := true }
     s.fw.twinOn = true ∧ s.raisable 15 = true ∧ s.pairedMask.getLsbD 15 = true ∧ s.partnerSays true = true ∧
       s.partnerSays false = true) ∧
    { worker with link.twins := [{ a := 3, b := 31, pair := .replicate 16 (some 0) }] }.partnerSays true = false ∧
    (summitDev.summit = true ∧ (summitDev.link.routes.find? fun x => decide (x.id = (7 : BitVec 12).toNat)) = some route ∧
      route.broken = true) := by decide +kernel

/-! ### 14 to 17: images, security, events, policies, the peripheral port -/

/-- An image whose header and sections pass (Tables 15.5, 15.6), of 0x5160 bytes. -/
def img : List Byte :=
  b32 0x4E564946 ++ b16 1 ++ b16 0x100 ++ b32 0x5160 ++ [3, 0, 0, 0] ++ b32 7 ++ b32 1 ++ List.replicate 8 0 ++ List.replicate 96 9
    ++ b32 0x100 ++ b32 16384 ++ b32 0 ++ b32 0 ++ b32 0x4100 ++ b32 4096 ++ b32 0 ++ b32 0 ++ List.replicate 96 0
    ++ List.replicate 0x5060 1

def keyHash (l : List Byte) : BitVec 384 := Config.sha384 (bytesAt l 0x20 96)

/-- A device that runs slot A, with the image in slot B and in handle 0, and a credential in handle 1. -/
def imaged : State :=
  { up with
    boot.flash := some sfdp, boot.dir := .replicate 2 dir0.bytes, boot.keyRead := true, boot.running := some (.slot .a)
    boot.slotB := img, boot.kh := .replicate 4 (some (keyHash img))
    fw.handle := (up.fw.handle.set 0 (some { kind := .image, size := 0x5160, bytes := [1, 2], status := some 0 })).set 1 (hnd .cred [3, 4]) }

/-- The same device in a trial of slot B. -/
def trying : State := { imaged with boot.trial := true, boot.dir := tried, boot.running := some (.slot .b), boot.trialWd := some 4 }

theorem image_ok {s : State} {l : List Byte} {n : Nat} (h1 : imgHeaderOk l n = true) (h2 : imgSectsOk l = true)
    (h3 : s.boot.kh = .replicate 4 (some (keyHash l))) (h4 : s.boot.revoke = 0) (h5 : imgSigned l = true) :
    s.imageCheck l n = 0 := by
  have hk : imgSlots s.boot.kh l = idx 4 := by
    simp only [imgSlots, h3, ← keyHash.eq_1]; rw [List.filter_eq_self]; intro a _; simp
  simp [State.imageCheck, hk, h1, h2, h4, h5, idx, bit]

theorem pair_opt {α : Type} {o : Option α} (h : o.isSome = true) : ∃ a, o = some a := Option.isSome_iff_exists.mp h

set_option maxRecDepth 100000 in
theorem imaged_header : imgHeaderOk (imaged.readSlot imaged.targetSlot) (min imaged.dir.slotSize (imaged.objSize 1)) = true ∧
    imgSectsOk (imaged.readSlot imaged.targetSlot) = true ∧ imaged.readSlot imaged.targetSlot = img := by
  refine ⟨by decide +kernel, by decide +kernel, rfl⟩

/-- With a signature that verifies, the image passes every check. -/
theorem imaged_check (h : imgSigned img = true) :
    imaged.imageCheck (imaged.readSlot imaged.targetSlot) (min imaged.dir.slotSize (imaged.objSize ((0 : Fin 8).val + 1))) = 0 :=
  image_ok imaged_header.1 imaged_header.2.1 (by rw [imaged_header.2.2]; rfl) (by decide +kernel) (by rw [imaged_header.2.2]; exact h)

theorem imaged_writes :
    ∃ u, writeDir (imaged.dir.written imaged.targetSlot 2 (imgInfo (imaged.readSlot imaged.targetSlot)).seq) imaged = some u :=
  pair_opt (by decide +kernel)

theorem trial_confirms : ∃ u, writeDir (trying.confirmedDir .b) trying = some u := pair_opt (by decide +kernel)

theorem image_signer : ({ imaged with boot.imgBytes := img } : State).signedBy 3 = true := by
  simp [State.signedBy, imgSlots, imaged, idx, keyHash]

theorem witness_FirmwareSecurity :
    (Asked 0x0A01 8 2 [] imaged (fun _ => True) ∧ imaged.boot.running = some (.slot .a)) ∧
    (let s := { imaged with boot.running := some .host }
     Asked 0x0A01 8 2 [] s (fun _ => s.boot.running = some .host)) ∧
    (Asked 0x0A02 8 4 [1, 0] imaged (fun m => mword m 2 = wordN ((0 : Fin 8).val + 1) ∧ mword m 3 = 0) ∧
      imaged.object ((0 : Fin 8).val + 1) .image = some [1, 2] ∧ imaged.trying = false ∧ imaged.dirIndex = some 0) ∧
    (Asked 0x0A02 8 4 [1, 0] trying (fun m => mword m 2 = wordN ((0 : Fin 8).val + 1) ∧ mword m 3 = 0) ∧
      trying.object ((0 : Fin 8).val + 1) .image = some [1, 2] ∧ trying.trying = true) ∧
    (Asked 0x0A03 8 2 [] trying (fun _ => True) ∧ trying.boot.trial = true ∧ trying.boot.running = some (.slot .b)) ∧
    Asked 0x0A03 8 2 [] up (fun _ => up.boot.trial = false) ∧ Asked 0x0A04 8 2 [] up (fun _ => True) ∧
    Asked 0x0B01 8 2 [] imaged (fun _ => True) ∧
    Asked 0x0B02 8 4 [3, 0x52564B31] up (fun m => mword m 2 = wordN (3 : Fin 4).val ∧ mword m 3 = 0x52564B31 ∧
      up.signedBy 3 = false) ∧
    (let s := { imaged with boot.imgBytes := img }
     Asked 0x0B02 8 4 [3, 0x52564B31] s (fun m => mword m 2 = wordN (3 : Fin 4).val ∧ mword m 3 = 0x52564B31)) ∧
    (Asked 0x0B03 8 3 [2] imaged (fun m => mword m 2 = wordN ((1 : Fin 8).val + 1)) ∧
      imaged.object ((1 : Fin 8).val + 1) .cred = some [3, 4] ∧ imaged.boot.keyRead = true ∧
      imaged.writeTo = some 0 ∧ imaged.hasCopy 0 = true) ∧
    (let s := { imaged with boot.keyRead := false }
     Asked 0x0B03 8 3 [2] s (fun m => mword m 2 = wordN ((1 : Fin 8).val + 1) ∧
       s.object ((1 : Fin 8).val + 1) .cred = some [3, 4] ∧ s.boot.keyRead = false)) := by decide +kernel

/-- Zone 3 has channel 1 and its noise policy runs on a reading. -/
def zoned : State :=
  { up with
    fw.zone := up.fw.zone.set 3
      { up.fw.zone[3] with on := true, chans := 2, noiseOn := true, grp := 3, chan := 4, reads := [5, 0x7FFFFFFF], gain := 7 } }

theorem witness_Policies :
    (∀ ws ∈ [[0x8305, 0], [0x8305, 1]], Asked 0x0D01 8 4 ws up (fun m => mword m 2 = wordN 0x8305 ∧ isEvent 0x8305 = true ∧
      ((mword m 3 = if false then 1 else 0) ∨ (mword m 3 = if true then 1 else 0)))) ∧
    (∀ ws ∈ [[0xFFFF, 0], [0xFFFF, 1]], Asked 0x0D01 8 4 ws up (fun m => mword m 2 = 0xFFFF)) ∧
    Asked 0x0D02 8 2 [] up (fun _ => True) ∧ Asked 0x0D03 8 2 [] up (fun _ => True) ∧
    Asked 0x0E01 8 5 [15 + 256, 0x8000, 15 + 256 * 11] zoned (fun m => mword m 2 = wordN ((15 : ZoneId).val + 256) ∧
      mword m 3 = (0x8000 : BitVec 16).zeroExtend 32 ∧ mword m 4 = wordN ((15 : GrpId).val + 256 * (11 : Fin 12).val) ∧
      (0x8000 : BitVec 16) ≠ 0 ∧ zoned.zoneClash 15 0x8000 = false) ∧
    Asked 0x0E01 8 5 [15 + 256, 2, 0] zoned (fun m => mword m 2 = wordN ((15 : ZoneId).val + 256) ∧
      mword m 3 = (2 : BitVec 16).zeroExtend 32 ∧ mword m 4 = 0 ∧ zoned.zoneClash 15 2 = true) ∧
    (∀ ws ∈ [[15, 120, 2 ^ 32 - 800, 25, 1], [15, 0, 0, 100, 0]], Asked 0x0E02 8 7 ws up (fun m => mword m 2 = wordN (15 : ZoneId).val ∧
      (mword m 3).toNat ≤ 120 ∧ -800 ≤ (mword m 4).toInt ∧ (mword m 4).toInt ≤ 0 ∧ 25 ≤ (mword m 5).toNat ∧
      (mword m 5).toNat ≤ 100 ∧ (mword m 6).toNat ≤ 1)) ∧
    Asked 0x0E03 8 4 [15, 1] up (fun m => mword m 2 = wordN (15 : ZoneId).val ∧ (mword m 3).toNat ≤ 1) ∧
    Asked 0x0E04 8 4 [1, 6] up (fun m => (mword m 2).toNat ≤ 1 ∧ (mword m 3).toNat ≤ 6) ∧
    Asked 0x0E05 8 4 [1, 168] up (fun m => (mword m 2).toNat ≤ 1 ∧ (mword m 3).toNat ≤ 168) ∧
    (∀ ws ∈ [[10, 0], [10000, 1]], Asked 0x0E06 8 4 ws up (fun m => 10 ≤ (mword m 2).toNat ∧ (mword m 2).toNat ≤ 10000 ∧
      (mword m 3).toNat ≤ 1)) ∧
    (Asked 0x0E07 8 3 [3] zoned (fun m => mword m 2 = wordN (3 : ZoneId).val) ∧ zoned.fw.zone[(3 : ZoneId)].level.isSome = true) ∧
    (up.noiseReads 15 = false ∧ zoned.noiseReads 3 = true ∧ zoned.noiseRuns 3 = true ∧ zoned.fw.zone[(3 : ZoneId)].on = true ∧ zoned.fw.started = true ∧
      zoned.sup.restarting = false ∧ zoned.boot.phase = .firmware ∧ zoned.fw.zone[(3 : ZoneId)].stale = false ∧
      zoned.noiseValue 3 = 0) ∧
    (let s := { zoned with fw.zone := zoned.fw.zone.set 3 { zoned.fw.zone[3] with stale := true } }
     s.noiseRuns 3 = true ∧ s.fw.zone[(3 : ZoneId)].stale = true) := by decide +kernel

/-- A PERI_XFER on select 1 of three 8-bit words, and its entry. -/
def xfer : Msg := ask 0xC01 [1 + 4 * 7 + 256 * 3, 65535, 0, 1, 2, 3]
def entry (cont : Bool) (r : Option Msg) : PeriEntry :=
  { sel := 1, width := 8, cont := cont, timeout := 5, data := [1, 2, 0x1FF], reply := r, byHandle := false }

theorem witness_PeripheralPort :
    (∀ ws ∈ [[1 + 4 * 7 + 256, 1, 0, 3], [1 + 4 * 7 + 256, 65535, 0, 3]], Asked 0x0C01 (max 8 (5 + 1)) (5 + 1) ws up (fun m =>
      mword m 2 = wordN (1 + 4 * (8 - 1) + 256 * 1) ∧ 1 ≤ (mword m 3).toNat ∧ (mword m 3).toNat ≤ 65535 ∧ mword m 4 = 0)) ∧
    Asked 0x0C01 (max 8 (5 + 10)) (5 + 10) [3 + 4 * 31 + 256 * 10, 1, 0, 1, 2, 3, 4, 5, 6, 7, 8, 9, 10] up (fun m =>
      mword m 2 = wordN (3 + 4 * (32 - 1) + 256 * 10) ∧ 1 ≤ (mword m 3).toNat ∧ mword m 4 = 0) ∧
    Asked 0x0C01 8 6 [4 * 7 + 256, 1, 0, 3] up (fun m => mword m 2 = wordN (4 * 7 + 256) ∧ mword m 3 = 1 ∧ mword m 4 = 0) ∧
    (∀ b : Bool, let s := { up with peri.queue := [entry b none] }
      s.peri.queue = entry b none :: [] ∧ s.peri.paused = none ∧ s.peri.held = none ∧ (entry b none).reply = none ∧
      (entry b none).data ≠ []) ∧
    (let e := entry false (some xfer)
     let s := { up with peri.queue := [e], fw.line := [{ key := keyOf xfer, pos := none, msg := none }] }
     s.peri.queue = e :: [] ∧ s.fw.line = [{ key := keyOf xfer, pos := none, msg := none }] ∧ s.peri.paused = none ∧ s.peri.held = none ∧ e.reply = some xfer ∧ xfer.box = 0 ∧
       e.byHandle = false ∧ e.cont = false ∧ e.data ≠ [] ∧ s.peri.broken = false ∧ s.link.active = false ∧ e.sel ≠ 0 ∧
       (0 < e.data.length ∧ 2 < e.data.length)) ∧
    (let e := entry true none
     let r : PeriRun := { sel := 1, words := [(8, 9)], reads := 0 }
     let s := { up with peri.queue := [e], peri.held := some 1, peri.sent := [r] }
     s.peri.queue = e :: [] ∧ s.peri.paused = none ∧ s.peri.held = some e.sel ∧ s.peri.sent.getLast? = some r ∧ e.reply = none ∧
       e.cont = true) ∧
    (let s := { up with peri.paused := some (entry false none, [5]) }
     s.peri.paused = some (entry false none, [5])) ∧
    (let s := { up with peri.paused := some (entry true (some xfer), [5, 6, 7]), fw.line := [{ key := keyOf xfer, pos := none, msg := none }] }
     s.fw.line = [{ key := keyOf xfer, pos := none, msg := none }] ∧ s.peri.paused = some (entry true (some xfer), [5, 6, 7]) ∧ s.peri.broken = false ∧
       [(5 : Word), 6, 7].length ≤ (entry true (some xfer)).data.length ∧ s.link.active = false) ∧
    (let s := { up with peri.held := some 1 }
     s.peri.queue = [] ∧ s.peri.paused = none) := by decide +kernel

/-! ### 15, 17, 18: boot, resets, watchdogs, debug -/

def pins (bootsel : BitVec 3) (test : Bool) : Straps :=
  { role := 3, pairId := false, hchain := false, bootsel := bootsel, testmode := test }

def romEnv (self fuses locks : Bool) : RomEnv :=
  { selfTest := self, fusesOk := fuses, sysLocks := locks, src := .refclk, family := .f48, flash := none }

/-- Capo-H restarts, and the retained record matches the image. -/
def recovering : State :=
  { up with sup.restarting := true, boot.warm := some { digest := imgDigest up.boot.sramH, svn := 3, src := .host, entry := .replicate 2 0 } }

theorem recovering_matches : recovering.warmMatch = true := by simp [State.warmMatch, recovering]

theorem witness_BootRows :
    (10000 ≤ 10000 ∧ 999 < 1000) ∧ trying.boot.trialWd ≠ none ∧ up.boot.trialWd = none ∧
    (State.reset.boot.phase = .held ∧ State.reset.sup.restarting = false ∧ bit State.reset.boot.bootOrder 3 = false ∧
      State.reset.boot.testLock = false) ∧
    ((pins 3 true).testmode = true ∧ (pins 3 false).testmode = false ∧ (pins 7 false).bootsel = 7 ∧ (pins 6 false).bootsel = 6 ∧
      (pins 3 false).bootsel = 3) ∧
    ((romEnv false true true).selfTest = false ∧ (romEnv true false true).fusesOk = false ∧
      (romEnv true true false).sysLocks = false ∧ (romEnv true true true).selfTest = true ∧ (romEnv true true true).fusesOk = true ∧
      (romEnv true true true).sysLocks = true ∧ (romEnv true true true).src = .refclk) ∧
    (let s := { up with boot.phase := .rom, boot.order := [.p, .h] }
     s.boot.phase = .rom ∧ s.boot.order = [.p, .h]) ∧ { up with boot.order := [.h] }.boot.order = [.h] ∧
    (let s := { up with boot.phase := .verified }
     s.boot.phase = .verified ∧ s.fw.q[2] = [] ∧ s.fw.lostHeld = false ∧ (s.clk.actSrc ≠ some .ridge ∨ s.managerRole = false) ∧
       { s with boot.svn := some 3 }.boot.svn = some 3) ∧
    (recovering.boot.phase = .firmware ∧ recovering.sup.restarting = true ∧ recovering.fw.started = true) := by decide +kernel

/-- A healthy trial that confirms itself. -/
def healthy : State :=
  { trying with boot.image.autoconf := true, sup.capoSRun := true, clk.sysLock := true, boot.cfgRead := true }

theorem healthy_confirms : ∃ u, confirmTrial healthy = some u := pair_opt (by decide +kernel)

/-- A device asleep that keeps its image. -/
def asleep : State := { recovering with boot.phase := .sleeping, boot.wakeMask := 3, sup.restarting := false }

theorem asleep_matches : asleep.warmMatch = true := by simp [State.warmMatch, asleep, recovering]

theorem witness_Supervision :
    (healthy.selfHealthy = true ∧ up.selfHealthy = false) ∧
    (asleep.boot.phase = .sleeping ∧ wakes asleep.boot.wakeMask .hsel = true ∧ wakes asleep.boot.wakeMask .gpio0 = true) ∧
    (up.boot.phase ≠ .sleeping ∧ wakes 0 .hsel = false) ∧
    (up.outsHeld = true ∧ { up with fw.started := false }.outsHeld = false ∧ { up with fw.started := false }.sup.quiet ≠ 0) ∧
    (up.boot.phase = .firmware ∧ up.sup.restarting = false ∧ { up with sup.capoSRun := true }.sup.capoSRun = true ∧
      up.sup.quiet ≠ 0) ∧
    (let s := { up with clk.fallback := false, clk.sysLock := true, clk.tickRun := true, sup.quiet := 0 }
     s.boot.phase = .firmware ∧ s.clk.fallback = false ∧ s.sup.quiet = 0 ∧ s.clk.sysLock = true ∧ s.clk.tickRun = true) ∧
    ((3 : Fin 7).val < 4 ∧ (0 : Fin 7).val < 4) ∧
    (up.reachable = true ∧ up.boot.debugDisable = false ∧ up.boot.debugLock = false ∧ up.boot.fuseLock = false) ∧
    State.reset.reachable = false ∧
    (let s := { up with boot.debugLock := true, boot.fuseLock := true, boot.debugDisable := true, boot.khLock := true,
                        boot.orderLock := true, boot.testLock := true }
     s.boot.debugLock = true ∧ s.boot.fuseLock = true ∧ s.boot.debugDisable = true ∧ s.boot.khLock = true ∧
       s.boot.orderLock = true ∧ s.boot.testLock = true) ∧
    (up.boot.kh[(3 : Fin 4)] = none ∧ up.boot.khLock = false) ∧
    { up with boot.phase := .boundaryScan }.boot.phase = .boundaryScan ∧ up.boot.phase ≠ .boundaryScan := by decide +kernel

/-! ### The machine -/

theorem witness_StepRunsFront :
    up.pending = [] ∧ (let s := { up with clk.fallback := false, clk.sysLock := true, clk.tickRun := true }
      s.pending = [] ∧ s.clk.tickRun = true ∧ s.counting = true ∧ s.clk.syncPend = none ∧ s.clk.sysHold = 0) ∧
    (State.reset.fw.sleep = none ∧ State.reset.clk.tickRun = false ∧ State.reset.counting = false) := by decide +kernel

/-- STAT shows code c. -/
def shows (c : BitVec 4) (s : State) : Prop := StatShown s ∧ s.sup.stat = c ∧ s.fw.started = true ∧ s.boot.phase = .firmware

/-- A device with no cause of Table 17.5. -/
def calm : State := { up with sup.quiet := 0, sup.stat := 0, clk.actSrc := up.clk.refOrder.head? }

/-- One state for every code of Table 17.5. -/
theorem witness_StatKept :
    StatShown State.reset ∧ (shows 0xC { calm with sup.quiet := 1, sup.stat := 0xC }) ∧
    (shows 0xD { calm with sup.restarting := true, sup.stat := 0xD }) ∧
    (shows 0x2 { calm with pcd.ch := calm.pcd.ch.set 15 { calm.pcd.ch[15] with st := .locked }, sup.stat := 0x2 }) ∧
    (shows 0x4 { calm with grp := calm.grp.set 15 { calm.grp[15] with givenUp := true }, sup.stat := 0x4 }) ∧
    (shows 0x4 { calm with eng := calm.eng.set 19 { calm.eng[19] with retired := true }, sup.stat := 0x4 }) ∧
    (shows 0x5 { calm with port := calm.port.set 11 { calm.port[11] with st := .lost }, sup.stat := 0x5 }) ∧
    (let s := { calm with clk.hold := true, sup.stat := 0x6 }
     shows 0x6 s ∧ s.linkTrouble = true) ∧
    (shows 0x7 { calm with clk.actSrc := none, sup.stat := 0x7 }) ∧
    (shows 0x3 { calm with pcd.ch := calm.pcd.ch.set 15 { calm.pcd.ch[15] with folding := true }, sup.stat := 0x3 }) ∧
    shows 0x0 calm := by
  unfold shows StatShown; decide +kernel

/-- Memories that hold words, and a command at the front. -/
def stored : State := { engines (mv 1 31) with mtx.snap := [(3, 7)], mtx.hist := [[(3, 7)]], pending := [.inten 7] }

theorem witness_MemoriesKept : MemoriesSound stored ∧ ∃ t, step stored = .next t := by
  refine ⟨?_, _, rfl⟩
  constructor <;> decide +kernel

/-- A CALL in the loader's trace goes on with the packet and transfer counts of its own packet and returns after it (R118). -/
theorem test_call_trace :
    (let t := Tr.call (objHdr []) 6 9 (Tr.start 5) { Tr.start 5 with n := 1, d := 2 }
     t.n = 1 ∧ t.d = 2 ∧ t.pc = 9 ∧ t.calls = [6] ∧ t.deep = 1 ∧ t.ended = false) := by decide

end Sys2Proof.Tests
end

section
/-! The statements of 01 about the tick boundary and the memories. Both fail: each refutation runs the model on one state. -/
namespace Sys2Proof.Machine
open Sys2Proof

/-! ### The tick boundary while the tick does not run (R18) -/

/-- The upsets of the crosspoint memory that the command brings are stored whether the tick runs or not. -/
theorem exec_tickBoundary_stopped {s : State} (e : Int) (u : List (Fin 131072 × XpPart)) (hs : s.clk.tickRun = false) :
    exec (.tickBoundary e u) s = .next (refresh (upsetXp u s)) := by
  simp [exec, execTickBoundary, done, upsetXp, hs]

theorem upsetXp_parity (u : List (Fin 131072 × XpPart)) (s : State) :
    (upsetXp u s).mtx.parity = s.mtx.parity ++ u.map fun x => (x.1.val, x.2) := rfl

/-- Refutes O36: on the reset state, whose tick does not run, a TICK_BOUNDARY that brings an upset of crosspoint 0 leaves its
parity mark, so something happens. -/
theorem not_tickBoundary : ¬ Obligations.TickBoundary := by
  unfold Obligations.TickBoundary
  intro h
  have hrun : State.reset.clk.tickRun = false := rfl
  obtain ⟨hstopped, -⟩ := h .reset 0 [(0, .cur)]
  have heq : refresh (upsetXp [(0, .cur)] .reset) = refresh .reset := by
    simpa only [exec_tickBoundary_stopped _ _ hrun, Host.Outcome.next.injEq] using hstopped hrun
  have hpar := congrArg (fun s => s.mtx.parity) heq
  simp only [refresh_frame, upsetXp_parity] at hpar
  exact absurd hpar (by decide)

/-! ### A memory that a scheduled change holds (R19, R126, R129) -/

/-- What a candidate would be loaded with whose P image lists address 0 with a zero. -/
def zeroListed : Loading := { info := .empty, p := [(0, 0)], d := [], a0 := [], a1 := [], bank := false }

/-- At reset but for a tick that runs, a spare engine 0 and a preemption that has freed it: at the next boundary it is loaded with
`zeroListed`. The matrix is in a fault, which spares the evaluation of its columns. -/
def zeroScheduled : State :=
  { State.reset with
    clk.tickRun := true
    eng := State.reset.eng.set 0 { Engine.reset with st := .spare }
    mtx.fault := some { held := .replicate 256 0, j := 32, second := false }
    fw.sched := [{ due := .next, change := .place 0 (.default .host 0 false) zeroListed none none }]
    pending := [.tickBoundary 0 []] }

theorem zeroScheduled_sound : MemoriesSound zeroScheduled := by
  constructor <;> decide +kernel

theorem step_zeroScheduled : ∃ t, step zeroScheduled = .next t ∧ t.eng[(0 : EngId)].p = zeroListed.p :=
  ⟨_, rfl, by decide +kernel⟩

/-- Refutes O60: `MemoriesSound` does not speak of the memories that a scheduled placement of a candidate holds, and the boundary
copies them into the engine as they are; in `zeroScheduled` the P memory of engine 0 lists a zero afterwards. -/
theorem not_memoriesKept : ¬ Obligations.MemoriesKept := by
  unfold Obligations.MemoriesKept
  intro h
  obtain ⟨t, ht, hp⟩ := step_zeroScheduled
  have hwf : t.eng[(0 : EngId)].p.wf = true := (h zeroScheduled t zeroScheduled_sound ht).p 0
  rw [hp] at hwf
  exact absurd hwf (by decide)

end Sys2Proof.Machine
end

section
/-! What a row of Tables 14.5 to 14.9 does that refuses, and the statement of 14 about AT and FWD. -/
namespace Sys2Proof.Machine
open Sys2Proof

/-! ### The response of a serving device -/

/-- The state with a response at the end of the queue of MBO0, once STAT has followed. -/
def replied (x : Msg) (s : State) : State := refresh (s.modQ 0 (· ++ [x]))

theorem replied_queue (x : Msg) (s : State) : (replied x s).fw.q[0] = s.fw.q[0] ++ [x] := by simp [replied]

theorem outside_replied (x : Msg) (s : State) : Outside [.resp] s (replied x s) :=
  (outside_modQ0 s _).trans ((outside_refresh _).mono (by simp))

@[simp] theorem replied_frame (x : Msg) (s : State) :
    (replied x s).clk = s.clk ∧ (replied x s).eng = s.eng ∧ (replied x s).tile = s.tile ∧ (replied x s).grp = s.grp ∧
    (replied x s).link = s.link ∧ (replied x s).fw.sched = s.fw.sched ∧ (replied x s).fw.line = s.fw.line ∧
    (replied x s).fw.heldTune = s.fw.heldTune ∧ (replied x s).fw.bulkOut = s.fw.bulkOut := by
  simp [replied]

/-- A refusal of a serving device is answered at once. -/
theorem Serving.refuse_eq {s : State} (hs : Serving s) {m : Msg} (hb : m.box = 0) (f : Fail) :
    refresh (refuse m f s) = replied (answer m f.status f.info f.ws) s := by
  simp [refuse, queueReply_queue hs.answered, hb, replied]

/-- What a row does that refuses: its response, and nothing else. -/
theorem refused_row {s : State} (hs : Serving s) {m : Msg} (hb : m.box = 0) {f : Fail} {o : Out}
    (h : o = .next (refresh (refuse m f s))) :
    ∃ t, o = .next t ∧ t.fw.q[0] = s.fw.q[0] ++ [answer m f.status f.info f.ws] ∧ Outside [.resp] s t :=
  ⟨_, h, hs.refuse_eq hb f ▸ ⟨replied_queue _ s, outside_replied _ s⟩⟩

/-- A refusal that is a status alone. -/
theorem denied_row {s : State} (hs : Serving s) {m : Msg} (hb : m.box = 0) {st : Nat} {o : Out}
    (h : o = .next (refresh (refuse m (.of st) s))) :
    ∃ t, o = .next t ∧ t.fw.q[0] = s.fw.q[0] ++ [answer m st 0 []] ∧ Outside [.resp] s t :=
  refused_row (f := .of st) hs hb h

/-! ### A command with AT or FWD (R375, R377, R378) -/

/-- What the header of a command says: DIR and the fields of W0 above it, by their number. -/
theorem header_bits {m : Msg} {n : Nat} (h : fld m.w[0] 24 3 = n) :
    mfld 0 24 1 m = n % 2 ∧ isAt m = decide (n / 2 % 2 = 1) ∧ isFwd m = decide (n / 4 % 2 = 1) := by
  have hw : mword m 0 = m.w[0] := by simp [mword]
  simp only [fld, Nat.shiftRight_eq_div_pow] at h
  refine ⟨?_, ?_, ?_⟩
  · simp only [mfld, hw, fld, Nat.shiftRight_eq_div_pow]; omega
  all_goals
    simp only [isAt, isFwd, bit, BitVec.getLsbD, Nat.testBit_eq_decide_div_mod_eq, decide_eq_decide]
    omega

/-- A command of MBI0 for a serving device that its header and its words let pass is forwarded or run here. -/
theorem row_entered {s : State} {c : Cmd} {m : Msg} (hs : Serving s) (name : String) (hcode : cmdOf m = c.code) (hb : m.box = 0)
    (hroom : s.fw.q[0].length < 32) (he : entryFail c m = none) :
    row c name m s = .next (refresh (if isFwd m then forward c m s else runHere c m s)) := by
  have hg : gateFail c s = none := by simp [gateFail, hs.phase, State.serves, hs.started, hs.read, need]
  have hq : ¬ 32 ≤ s.queued 0 := by simp [State.queued, hs.answered]; omega
  simp [row, ifWf, wfCmd, hcode, done, arrive, hs.phase, hs.running, hb, hq, runCmd, firstOf, hg, he]

/-- A command that is forwarded by a device that is no active manager (R378). -/
theorem forward_notActive {s : State} (c : Cmd) (m : Msg) (h : s.link.active = false) : forward c m s = refuse m (.of 0x24) s := by
  simp [forward, h, deny, eNotActive]

/-- A command of a frame that runs here, on a device that no twin follows: the checks on AT, the schedule that a rate of M needs, and the
command's own effect (R156, R331). -/
theorem runHere_timed {s : State} {c : Cmd} {m : Msg} (hs : Serving s) (hat : isAt m = true) (hc : c.check s m = none) :
    runHere c m s = match atFail m s with
      | some f => refuse m f s
      | none => match (if s.spreads c m then sendFail c m 1 true s else none) with
        | some f => refuse m f s
        | none =>
          if s.spreads c m ∧ (c.act m (some (mword m 1)) s).fw.sched.length ≠ s.fw.sched.length then
            spreadHere c m (c.act m (some (mword m 1)) s)
          else c.act m (some (mword m 1)) s := by
  simp only [runHere, hc, firstOf, hs.no_twin c.code, frameOf, hat, if_true]
  cases atFail m s <;> rfl

theorem atFail_unplaced {s : State} {m : Msg} (hat : isAt m = true) (h : s.standalone = true ∨ s.link.pos = none) :
    atFail m s = some (.of 0x25) := by
  have hp : s.positioned = false := by rcases h with h | h <;> simp [State.positioned, h]
  simp [atFail, hat, hp, firstOf, need, eNotMember]

theorem atFail_placed {s : State} {m : Msg} (hat : isAt m = true) (ha : s.standalone = false) (hp : s.link.pos ≠ none) :
    atFail m s = if (mword m 1 - s.clk.frame).toInt < 16 then some (.of 0x23) else none := by
  have hpos : s.positioned = true := by simp [State.positioned, ha, Option.isSome_iff_ne_none, hp]
  by_cases h : (mword m 1 - s.clk.frame).toInt < 16
  · simp only [atFail, hat, hpos, firstOf, need, eLate, Int.not_le.mpr h, h, decide_false, if_true]; rfl
  · simp only [atFail, hat, hpos, firstOf, need, h, Int.not_lt.mp h, decide_true, if_true, if_false]

/-- A command that gives no rate of M, or gives it to nobody else, needs no schedule. -/
theorem spreads_eq_false {s : State} {c : Cmd} {m : Msg} (h : s.link.active = false ∨ c.wide m = none ∨ s.otherMembers [] = []) :
    s.spreads c m = false := by
  rcases h with h | h | h <;> simp [State.spreads, h]

/-- Settles O14: the header lets both forms pass; the checks on AT stand before the effect and refuse as they say, and FWD is refused before
everything else of the command. -/
theorem timedAndForwarded : Obligations.TimedAndForwarded := by
  unfold Obligations.TimedAndForwarded
  intro s c m hs hcode hb hroom hlen
  refine ⟨fun htimed hhead hcheck => ?_, fun hhead hw1 hactive => ?_⟩
  · have hhead3 : fld m.w[0] 24 3 = 2 := by simp only [fld, Nat.shiftRight_eq_div_pow] at hhead ⊢; omega
    have hdest : mfld 0 27 5 m = 0 := by
      simp only [mfld, mword, fld, Nat.shiftRight_eq_div_pow] at hhead ⊢; simp; omega
    obtain ⟨hdir, hat, hfwd⟩ := header_bits hhead3
    simp only [Nat.reduceMod, Nat.reduceDiv, decide_true, decide_false, Nat.zero_ne_one] at hdir hat hfwd
    have hentry : entryFail c m = none := by
      simp [entryFail, firstOf, fZero, need, hdir, hat, hfwd, htimed, hdest, hb, hlen]
    have hrow := row_entered hs "" hcode hb hroom hentry
    simp only [hfwd, Bool.false_eq_true, if_false, runHere_timed hs hat hcheck] at hrow
    refine ⟨fun hun => ?_, fun ha hp hlate => ?_, fun ha hp hfar => ⟨fun hno => ?_, fun hsp hsend hsched => ?_⟩⟩
    · rw [atFail_unplaced hat hun] at hrow
      exact denied_row hs hb hrow
    · rw [atFail_placed hat ha hp, if_pos hlate] at hrow
      exact denied_row hs hb hrow
    · rw [atFail_placed hat ha hp, if_neg (Int.not_lt.mpr hfar)] at hrow
      simpa [spreads_eq_false hno] using hrow
    · rw [atFail_placed hat ha hp, if_neg (Int.not_lt.mpr hfar)] at hrow
      simpa [hsp, hsend, hsched] using hrow
  · obtain ⟨hdir, hat, hfwd⟩ := header_bits hhead
    simp only [Nat.reduceMod, Nat.reduceDiv, decide_true, decide_false, Nat.zero_ne_one] at hdir hat hfwd
    have hentry : entryFail c m = none := by
      simp [entryFail, firstOf, fZero, need, hdir, hat, hfwd, hw1, hb, hlen]
    have hrow := row_entered hs "" hcode hb hroom hentry
    simp only [hfwd, if_true, forward_notActive c m hactive] at hrow
    exact denied_row hs hb hrow

end Sys2Proof.Machine
end

section
/-! Commands of a serving device: how a row answers, in terms of its checks and of its effect, and the fields that their checks read. -/
namespace Sys2Proof.Machine
open Sys2Proof

/-! ### The change of a schedule -/

@[simp] theorem schedule_frame (c : Change) (f : Option Word) (s : State) :
    (schedule c f s).clk = s.clk ∧ (schedule c f s).eng = s.eng ∧ (schedule c f s).tile = s.tile ∧ (schedule c f s).grp = s.grp ∧
    (schedule c f s).link = s.link ∧ (schedule c f s).boot = s.boot ∧ (schedule c f s).free = s.free ∧
    (schedule c f s).fw.q = s.fw.q ∧ (schedule c f s).fw.line = s.fw.line ∧ (schedule c f s).fw.bulkOut = s.fw.bulkOut := by
  and_intros <;> rfl

@[simp] theorem schedule_next_sched (c : Change) (s : State) :
    (schedule c none s).fw.sched = s.fw.sched ++ [{ due := .next, change := c }] := rfl

@[simp] theorem schedule_frame_sched (c : Change) (f : Word) (s : State) :
    (schedule c (some f) s).fw.sched = s.fw.sched ++ [{ due := .frame f none, change := c }] := rfl

/-- The next boundary is where a change without a frame is made. -/
theorem atNext_eq_schedule (c : Change) (s : State) : atNext c s = schedule c none s := rfl

/-- A change of the firmware's state that leaves its queues, and what events enter, as they are. -/
theorem outside_fw (s : State) (f : Fw) (hq : f.q = s.fw.q) (hloss : f.loss = s.fw.loss) (hheld : f.lostHeld = s.fw.lostHeld)
    (hwait : f.mirrorWait = s.fw.mirrorWait) (hline : f.line = s.fw.line) : Outside [.fw] s { s with fw := f } := by
  intro p hp
  cases p
  case fw => simp at hp
  case resp => simp only [SameAt, hq, hwait, hline, and_self]
  case events => simp only [SameAt, hq, hloss, hheld, and_self]
  case hostRegs => simp only [SameAt, and_self]
  all_goals exact rfl

theorem outside_link (s : State) (k : Link) : Outside [.link] s { s with link := k } := by
  intro p hp
  cases p
  case link => simp at hp
  case resp | events | hostRegs => simp only [SameAt, and_self]
  all_goals exact rfl

/-- The numbers of the model's own are no part that a frame names. -/
theorem outside_free (s : State) (n : Nat) : Outside [] s { s with free := n } := by
  intro p _
  cases p
  case resp | events | hostRegs => simp only [SameAt, and_self]
  all_goals exact rfl

theorem outside_sched (s : State) (l : List Sched) : Outside [.fw] s { s with fw.sched := l } := outside_fw s _ rfl rfl rfl rfl rfl

theorem outside_schedule (c : Change) (f : Option Word) (s : State) : Outside [.fw] s (schedule c f s) := outside_sched s _

/-! ### The response of a row -/

/-- What an effect leaves alone so that its response is queued at once. -/
structure RepliesAs (s u : State) : Prop where
  queue  : u.fw.q[0] = s.fw.q[0]
  line   : u.fw.line = s.fw.line
  active : u.link.active = s.link.active
  paired : u.link.paired = s.link.paired

theorem Outside.repliesAs {l : List Part} {s u : State} (h : Outside l s u) (hr : Part.resp ∉ l := by simp)
    (hl : Part.link ∉ l := by simp) : RepliesAs s u := by
  obtain ⟨hq, -, -, -, hline⟩ := h _ hr
  have hlink : u.link = s.link := h _ hl
  exact ⟨hq, hline, by rw [hlink], by rw [hlink]⟩

theorem Outside.sched_eq {l : List Part} {s u : State} (h : Outside l s u) (hf : Part.fw ∉ l := by simp) : u.fw.sched = s.fw.sched := by
  have hfw : _ = s.fw := h _ hf
  have hsched := congrArg Fw.sched hfw
  exact hsched

theorem Serving.respond_eq {s u : State} (hs : Serving s) {m : Msg} (hb : m.box = 0) (hu : RepliesAs s u) (st info : Nat)
    (ws : List Word) : refresh (respond m st info ws u) = replied (answer m st info ws) u := by
  have hun : u.link.active = false ∨ u.link.paired = false := by rw [hu.active, hu.paired]; exact hs.unmirrored
  rw [respond_queue st info ws hun (hu.line.trans hs.answered), hb]; rfl

/-- A command answers OK with what its effect brings, when its checks pass. -/
theorem answers_of_act {s : State} {mk : Msg → Instr} {name : String} {len tail : Nat} {pre : Msg → Prop} {ws : Msg → List Word}
    {P : Msg → State → Prop} (c : Cmd) (hs : Serving s) (hexec : ∀ m, exec (mk m) s = row c name m s)
    (h : ∀ m, Request c.code len tail m s → pre m → c.len m ≤ m.len.toNat ∧ c.check s m = none ∧
      ∃ u, c.act m none s = ok m (ws m) u ∧ RepliesAs s u ∧ P m (replied (answer m 0 0 (ws m)) u)) :
    Answers mk c.code len tail s pre ws P := by
  intro m r hpre
  obtain ⟨hl, hcheck, u, hact, hu, hP⟩ := h m r hpre
  have hrow := row_served c name hs r hl hcheck
  rw [hact, ok, hs.respond_eq r.box hu] at hrow
  exact ⟨_, (hexec m).trans hrow, by rw [replied_queue, hu.queue], hP⟩

/-- A request that the command's own checks refuse, or, where they pass, its effect. -/
def Cmd.Refuses (c : Cmd) (m : Msg) (s : State) (f : Fail) : Prop :=
  c.check s m = some f ∨ (c.check s m = none ∧ c.act m none s = refuse m f s)

/-- A request whose own checks fail is refused. -/
theorem row_unchecked {s : State} {c : Cmd} {m : Msg} {len tail : Nat} (name : String) (hs : Serving s)
    (r : Request c.code len tail m s) (hl : c.len m ≤ m.len.toNat) {f : Fail} (hc : c.check s m = some f) :
    row c name m s = .next (refresh (refuse m f s)) := by
  rw [row_entered hs name r.code r.box r.room (r.entry c hl)]
  simp [r.plain.2, runHere, firstOf, hc]

theorem refused_command {s : State} {c : Cmd} {m : Msg} {i : Instr} {name : String} {len tail : Nat} (hs : Serving s)
    (hexec : exec i s = row c name m s) (r : Request c.code len tail m s) (hl : c.len m ≤ m.len.toNat) {f : Fail}
    (hf : c.Refuses m s f) :
    Completes i s fun t => t.fw.q[0] = s.fw.q[0] ++ [answer m f.status f.info f.ws] ∧ Outside [.resp] s t := by
  refine refused_row hs r.box (hexec.trans ?_)
  rcases hf with hc | ⟨hc, hact⟩
  · exact row_unchecked name hs r hl hc
  · rw [row_served c name hs r hl hc, hact]

/-- The same for a refusal that is a status alone. -/
theorem denied_command {s : State} {c : Cmd} {m : Msg} {i : Instr} {name : String} {len tail : Nat} (hs : Serving s)
    (hexec : exec i s = row c name m s) (r : Request c.code len tail m s) (hl : c.len m ≤ m.len.toNat) {st : Nat}
    (hf : c.Refuses m s (.of st)) :
    Completes i s fun t => t.fw.q[0] = s.fw.q[0] ++ [answer m st 0 []] ∧ Outside [.resp] s t :=
  refused_command (f := .of st) hs hexec r hl hf

/-! ### The fields of a request -/

@[simp] theorem firstOf_none_cons (l : List (Option Fail)) : firstOf (none :: l) = firstOf l := rfl

@[simp] theorem firstOf_some_cons (f : Fail) (l : List (Option Fail)) : firstOf (some f :: l) = some f := rfl

@[simp] theorem firstOf_nil : firstOf [] = none := rfl

theorem firstOf_eq_none {l : List (Option Fail)} (h : ∀ x ∈ l, x = none) : firstOf l = none := by
  induction l with
  | nil => rfl
  | cons x l ih =>
    rw [h x (by simp), firstOf_none_cons]
    exact ih fun y hy => h y (by simp [hy])

@[simp] theorem need_true (f : Fail) : need true f = none := rfl

@[simp] theorem need_false (f : Fail) : need false f = some f := rfl

theorem wordN_toNat (x : Nat) : (wordN x).toNat = x % 2 ^ 32 := BitVec.toNat_ofNat ..

/-- The bits of a word that a request gives as a number. -/
theorem mfld_of_word {m : Msg} {w n : Nat} (h : mword m w = wordN n) (lo k : Nat) : mfld w lo k m = n % 2 ^ 32 / 2 ^ lo % 2 ^ k := by
  rw [mfld, h, fld, wordN_toNat, Nat.shiftRight_eq_div_pow]

/-- A number below 2^32 in a whole word. -/
theorem mfld_whole {m : Msg} {w n : Nat} (h : mword m w = wordN n) (hn : n < 2 ^ 32) : mfld w 0 32 m = n := by
  rw [mfld_of_word h]; omega

theorem mfld_zero {m : Msg} {w : Nat} (h : mword m w = 0) (lo k : Nat) : mfld w lo k m = 0 := by
  rw [mfld_of_word (n := 0) h]; simp

/-- A bit as a field of one bit. -/
theorem bit_of_mfld {m : Msg} {w i : Nat} {b : Bool} (h : mfld w i 1 m = boolN b) : bit (mword m w) i = b := by
  simp only [mfld, fld, Nat.shiftRight_eq_div_pow] at h
  simp only [bit, BitVec.getLsbD, Nat.testBit_eq_decide_div_mod_eq]
  cases b <;> simp [boolN] at h ⊢ <;> omega

theorem fRange_none {m : Msg} {w lo n a b x : Nat} (h : mfld w lo n m = x) (ha : a ≤ x) (hb : x ≤ b) : fRange w lo n a b m = none := by
  simp [fRange, h, ha, hb]

theorem fZero_none {m : Msg} {w lo n : Nat} (h : mfld w lo n m = 0) : fZero w lo n m = none := by simp [fZero, h]

theorem fGroup_none {m : Msg} {g : GrpId} (h : mword m 2 = wordN g.val) : fGroup m = none :=
  fRange_none (mfld_whole h (by omega)) (by omega) (by omega)

theorem msgGrp_eq {m : Msg} {g : GrpId} (h : mword m 2 = wordN g.val) : msgGrp m = g := by
  rw [msgGrp, mfld_whole h (by omega)]; simp [fin]

/-- The command has a group in W2 and no other word. -/
theorem groupCheck_none {m : Msg} {g : GrpId} {code len : Nat} {s : State} (h : mword m 2 = wordN g.val) (r : Request code len 3 m s) :
    firstOf [fGroup m, fTail 3 m] = none := by
  rw [fGroup_none h, fTail_none r.tail]; rfl

theorem fHandle_none {m : Msg} {w : Nat} {h : Fin 8} (hw : mword m w = wordN (h.val + 1)) : fHandle w 0 32 m = none :=
  fRange_none (mfld_whole hw (by omega)) (by omega) (by omega)

theorem needObject_none {s : State} {h : Nat} {k : XferKind} {l : List Byte} (ho : s.object h k = some l) (w b : Nat) :
    needObject s h k w b = none := by simp [needObject, ho]

theorem objBytes_eq {s : State} {h : Nat} {k : XferKind} {l : List Byte} (ho : s.object h k = some l) : s.objBytes h k = l := by
  simp [State.objBytes, ho]

end Sys2Proof.Machine
end

section
/-! The statement of 06 about tuning: where a write goes, what a read returns, and what a swap exchanges. -/
namespace Sys2Proof.Machine
open Sys2Proof

/-! ### A change of several engines -/

theorem outside_foldl_modEng (f : Engine → Engine) (l : List EngId) (s : State) :
    Outside [.eng] s (l.foldl (fun s e => s.modEng e f) s) :=
  Outside.foldl _ (fun s e => outside_modEng s e f) l s

/-- Each engine of a list without repetitions is changed once, every other one is left alone. -/
theorem foldl_modEng_at (f : Engine → Engine) (k : EngId) {l : List EngId} (hl : l.Nodup) (s : State) :
    (l.foldl (fun s e => s.modEng e f) s).eng[k] = if l.contains k then f s.eng[k] else s.eng[k] := by
  induction l generalizing s with
  | nil => simp
  | cons e l ih =>
    obtain ⟨he, hl⟩ := List.nodup_cons.mp hl
    rw [List.foldl_cons, ih hl]
    by_cases hk : k = e
    · subst hk; simp [he]
    · rw [State.modEng_at, vmod_ne _ _ _ _ hk, List.contains_cons, beq_false_of_ne hk, Bool.false_or]

/-! ### The engines that a write reaches -/

/-- The owner stands first; a candidate that follows it is another engine. -/
theorem tuned_nodup {s : State} {g : GrpId} {o : EngId} (ho : s.grp[g].owner = some o) (hlive : s.eng[o].st = .live) :
    (s.tuned g).Nodup := by
  simp only [State.tuned, ho]
  cases s.audOf g with
  | none => simp
  | some a =>
    dsimp only
    split
    · next h =>
      simp only [Bool.and_eq_true, decide_eq_true_eq] at h
      obtain ⟨⟨-, hcand⟩, -⟩ := h
      have hne : o ≠ a.cand := fun he => by subst he; rw [hlive] at hcand; cases hcand
      simp [hne]
    · simp

theorem tuned_of_noAudition {s : State} {g : GrpId} {o : EngId} (ho : s.grp[g].owner = some o) (ha : s.audOf g = none) :
    s.tuned g = [o] := by simp only [State.tuned, ho, ha]

/-- While no copy runs, a write reaches the shadow array of every engine that a group tunes, and nothing else. -/
theorem tuneWrite_at {s : State} {g : GrpId} {o : EngId} (off : Nat) (l : List Half) (ho : s.grp[g].owner = some o)
    (hlive : s.eng[o].st = .live) (hcopy : s.grp[g].copying = false) (k : EngId) :
    (tuneWrite g off l s).eng[k] = if (s.tuned g).contains k then Engine.tune off l s.eng[k] else s.eng[k] := by
  simp only [tuneWrite, hcopy, Bool.false_eq_true, if_false]
  exact foldl_modEng_at _ k (tuned_nodup ho hlive) s

theorem outside_tuneWrite {s : State} {g : GrpId} (off : Nat) (l : List Half) (hcopy : s.grp[g].copying = false) :
    Outside [.eng] s (tuneWrite g off l s) := by
  simp only [tuneWrite, hcopy, Bool.false_eq_true, if_false]
  exact outside_foldl_modEng _ _ s

theorem tuneWrite_held {s : State} {g : GrpId} (off : Nat) (l : List Half) (hcopy : s.grp[g].copying = true) :
    tuneWrite g off l s = { s with fw.heldTune := s.fw.heldTune ++ [(g, off, l)] } := by
  simp only [tuneWrite, hcopy, if_true]

theorem outside_heldTune (s : State) (l : List (GrpId × Nat × List Half)) : Outside [.fw] s { s with fw.heldTune := l } :=
  outside_fw s _ rfl rfl rfl rfl rfl

theorem outside_tuneWrite_any (s : State) (g : GrpId) (off : Nat) (l : List Half) : Outside [.eng, .fw] s (tuneWrite g off l s) := by
  cases hcopy : s.grp[g].copying with
  | true => rw [tuneWrite_held off l hcopy]; exact (outside_heldTune s _).mono (by simp)
  | false => exact (outside_tuneWrite off l hcopy).mono (by simp)

/-! ### The checks of the TUNE commands -/

/-- The fields of W2 of TUNE_WRITE and TUNE_READ: group, offset and, in bit 31, which array. -/
theorem tuneWord_fields {m : Msg} {g : GrpId} {off : Nat} {b : Bool} (hoff : off < 16384)
    (h : mword m 2 = wordN (g.val + 65536 * off + 2 ^ 31 * boolN b)) :
    tuneGrp m = g ∧ tuneOff m = off ∧ fZero 2 4 12 m = none ∧ fZero 2 30 1 m = none ∧ mfld 2 31 1 m = boolN b := by
  have hb : boolN b ≤ 1 := by cases b <;> decide
  have hg := g.isLt
  have field (lo k : Nat) := mfld_of_word h lo k
  refine ⟨?_, ?_, fZero_none ?_, fZero_none ?_, ?_⟩
  · rw [tuneGrp, field]
    refine Fin.ext ?_
    simp only [fin, Fin.val_ofNat]; omega
  · rw [tuneOff, field]; omega
  · rw [field]; omega
  · rw [field]; omega
  · rw [field]; omega

/-- A group with a LIVE owner, inside its window and with no audition of another window, may be tuned. -/
theorem tuneFail_none {s : State} {g : GrpId} {o : EngId} {off n : Nat} (ho : s.grp[g].owner = some o) (hlive : s.eng[o].st = .live)
    (hn : off + n ≤ s.eng[o].prog.pwsize) (hclash : s.tuneClash g = false) (a : Nat × Nat) (write : Bool) :
    s.tuneFail g off n a write = none := by
  simp only [State.tuneFail, ho, hlive, hn, hclash, decide_true, Bool.and_false, Bool.not_false, need_true, firstOf_none_cons,
    firstOf_nil]

theorem halves_length {l : List Byte} {n : Nat} (h : l.length = 2 * n) : (halves l).length = n := by
  induction n generalizing l with
  | zero => rw [List.length_eq_zero_iff.mp h]; rfl
  | succ n ih =>
    match l, h with
    | a :: b :: l, h => simp only [halves, List.length_cons] at h ⊢; rw [ih (by omega)]
    | [a], h => simp at h; omega

section
variable {s : State} {g : GrpId} {o : EngId} {off n : Nat} (hs : Serving s) (ho : s.grp[g].owner = some o)
  (hlive : s.eng[o].st = .live) (hoff : off < 16384) (hn : off + n ≤ s.eng[o].prog.pwsize) (hclash : s.tuneClash g = false)
include hs ho hlive hoff hn hclash

/-- TUNE_WRITE: its values go to the shadow arrays, or wait for the copy of R152. -/
theorem tuneWrite_answers (h1 : 1 ≤ n) (h22 : n ≤ 22) :
    Answers .tuneWrite 0x0601 (max 8 (4 + (n + 1) / 2)) (4 + (n + 1) / 2) s
      (fun m => mword m 2 = wordN (g.val + 65536 * off) ∧ mword m 3 = wordN n ∧
        (n % 2 = 1 → fld (mword m (3 + (n + 1) / 2)) 16 16 = 0)) (fun _ => []) (fun m t =>
        (s.grp[g].copying = false → Outside [.resp, .eng] s t ∧
          ∀ k : EngId, t.eng[k] = if (s.tuned g).contains k then Engine.tune off (tuneVals m) s.eng[k] else s.eng[k]) ∧
        (s.grp[g].copying = true → t.fw.heldTune = s.fw.heldTune ++ [(g, off, tuneVals m)] ∧ Outside [.resp, .fw] s t)) := by
  refine answers_of_act tuneWriteCmd (name := "TUNE_WRITE") hs (fun _ => rfl) fun m r hpre => ?_
  obtain ⟨hw2, hw3, hodd⟩ := hpre
  obtain ⟨hgrp, hofs, hz4, hz30, hz31⟩ := tuneWord_fields (b := false) hoff hw2
  have hcount : tuneCount m = n := mfld_whole hw3 (by omega)
  have hlen : tuneLen m = 4 + (n + 1) / 2 := by simp [tuneLen, hcount, h1, h22]
  have hhalf : (if n % 2 = 1 then fZero (4 + (n + 1) / 2 - 1) 16 16 m else none) = none := by
    split
    · next h => rw [show 4 + (n + 1) / 2 - 1 = 3 + (n + 1) / 2 by omega]; exact fZero_none (hodd h)
    · rfl
  have hcheck : tuneWriteCmd.check s m = none := by
    simp only [tuneWriteCmd, tuneFields, hz4, hz30, fZero_none hz31, hcount, hlen, fTail_none r.tail, hhalf,
      fRange_none (mfld_whole hw3 (by omega)) h1 h22, Bool.false_eq_true, if_false, List.cons_append, List.nil_append,
      firstOf_none_cons, firstOf_nil]
  have hact : tuneWriteCmd.act m none s = ok m [] (tuneWrite g off (tuneVals m) s) := by
    simp only [tuneWriteCmd, hgrp, hofs, hcount, tuneFail_none ho hlive hn hclash, orElse]
  refine ⟨by simpa [tuneWriteCmd, hlen] using r.len, hcheck, _, hact,
    (outside_tuneWrite_any s g off _).repliesAs, fun hcopy => ⟨?_, fun k => ?_⟩, fun hcopy => ⟨?_, ?_⟩⟩
  · exact ((outside_tuneWrite off _ hcopy).mono (by simp)).trans ((outside_replied _ _).mono (by simp))
  · simpa using tuneWrite_at off _ ho hlive hcopy k
  · simp [tuneWrite_held off _ hcopy]
  · rw [tuneWrite_held off _ hcopy]
    exact ((outside_heldTune s _).mono (by simp)).trans ((outside_replied _ _).mono (by simp))

/-- TUNE_WRITEH: the values of an object, while no copy runs. -/
theorem tuneWriteh_answers {h : Fin 8} {l : List Byte} (hobj : s.object (h.val + 1) .batch = some l) (hl : l.length = 2 * n)
    (h1 : 1 ≤ n) (hcopy : s.grp[g].copying = false) :
    Answers .tuneWriteh 0x0602 8 5 s
      (fun m => mword m 2 = wordN g.val ∧ mword m 3 = wordN off ∧ mword m 4 = wordN (h.val + 1)) (fun _ => []) (fun _ t =>
      (∀ k : EngId, t.eng[k] = if (s.tuned g).contains k then Engine.tune off (halves l) s.eng[k] else s.eng[k]) ∧
      Outside [.resp, .eng] s t) := by
  refine answers_of_act tuneWritehCmd (name := "TUNE_WRITEH") hs (fun _ => rfl) fun m r hpre => ?_
  obtain ⟨hw2, hw3, hw4⟩ := hpre
  have hhandle := mfld_whole hw4 (by omega)
  have hofs := mfld_whole hw3 (by omega)
  have hne : l ≠ [] := fun h => by simp [h] at hl; omega
  have hcheck : tuneWritehCmd.check s m = none := by
    simp only [tuneWritehCmd, fGroup_none hw2, fRange_none hofs (Nat.zero_le _) (Nat.le_of_lt_succ hoff), fHandle_none hw4, hhandle,
      needObject_none hobj, objBytes_eq hobj, hl, fTail_none r.tail, firstOf_none_cons]
    simp [hne]
  have hact : tuneWritehCmd.act m none s = ok m [] (tuneWrite g off (halves l) s) := by
    have hfail := tuneFail_none ho hlive (n := (halves l).length) (by rw [halves_length hl]; exact hn) hclash (3, 0) true
    simp only [tuneWritehCmd, hhandle, objBytes_eq hobj, msgGrp_eq hw2, hofs, hfail, orElse]
  refine ⟨r.len, hcheck, _, hact, (outside_tuneWrite off _ hcopy).repliesAs, fun k => ?_, ?_⟩
  · simpa using tuneWrite_at off _ ho hlive hcopy k
  · exact ((outside_tuneWrite off _ hcopy).mono (by simp)).trans ((outside_replied _ _).mono (by simp))

/-- TUNE_READ returns the live array, or with bit 31 of W2 the shadow. -/
theorem tuneRead_answers (b : Bool) (h1 : 1 ≤ n) (h26 : n ≤ 26) :
    Answers .tuneRead 0x0603 8 4 s
      (fun m => mword m 2 = wordN (g.val + 65536 * off + 2 ^ 31 * boolN b) ∧ mword m 3 = wordN n)
      (fun _ => packHalves ((if b then s.eng[o].shadowArray else s.eng[o].liveArray).getMany off n)) (fun _ t => Outside [.resp] s t) := by
  refine answers_of_act tuneReadCmd (name := "TUNE_READ") hs (fun _ => rfl) fun m r hpre => ?_
  obtain ⟨hw2, hw3⟩ := hpre
  obtain ⟨hgrp, hofs, hz4, hz30, hz31⟩ := tuneWord_fields hoff hw2
  have hcount : tuneCount m = n := mfld_whole hw3 (by omega)
  have hcheck : tuneReadCmd.check s m = none := by
    simp only [tuneReadCmd, tuneFields, hz4, hz30, fTail_none r.tail, fRange_none (mfld_whole hw3 (by omega)) h1 h26, if_true,
      List.cons_append, List.nil_append, firstOf_none_cons, firstOf_nil]
  have hact : tuneReadCmd.act m none s =
      ok m (packHalves ((if b then s.eng[o].shadowArray else s.eng[o].liveArray).getMany off n)) s := by
    simp only [tuneReadCmd, hgrp, hofs, hcount, tuneFail_none ho hlive hn hclash, orElse, ho, bit_of_mfld hz31]
  exact ⟨r.len, hcheck, _, hact, (Outside.refl [] s).repliesAs, outside_replied _ _⟩

end

/-! ### TUNE_SWAP (R153, R154) -/

/-- The one bit of a mask of groups. -/
theorem bitsOf_single {k : Nat} (hk : 16 ≤ k) (g : GrpId) : bitsOf 16 (BitVec.ofNat k (2 ^ g.val)) = [g] := by
  have hbit (i : GrpId) : (BitVec.ofNat k (2 ^ g.val)).getLsbD i.val = decide (i = g) := by
    have hi : i.val < k := by omega
    rw [BitVec.getLsbD_ofNat, Nat.testBit_two_pow]
    simp [hi, Fin.ext_iff, eq_comm]
  simp only [bitsOf, hbit]
  clear hbit
  revert g; decide

/-- TUNE_SWAP without a frame waits for its boundary: nothing is answered yet. -/
theorem tuneSwap_waits {s : State} {g : GrpId} {m : Msg} (hs : Serving s) (hclash : s.tuneClash g = false) (r : Request 0x0604 8 3 m s)
    (hw2 : mword m 2 = wordN (2 ^ g.val)) :
    exec (.tuneSwap m) s = .next (refresh (schedule (.swap (BitVec.ofNat 16 (2 ^ g.val)) (some m)) none (awaitOwn m s))) := by
  have hpow : 2 ^ g.val < 2 ^ 16 := Nat.pow_lt_pow_right (by decide) g.isLt
  have hpos : 0 < 2 ^ g.val := Nat.two_pow_pos _
  have hmask : fMask 2 16 m = none := by
    rw [fMask, mfld_whole hw2 (by omega), decide_eq_true hpow, decide_eq_true (Nat.ne_of_gt hpos)]; rfl
  have hgs : (bitsOf 16 (mword m 2) : List GrpId) = [g] := by rw [hw2]; exact bitsOf_single (by decide) g
  have htrunc : (mword m 2).truncate 16 = BitVec.ofNat 16 (2 ^ g.val) := by
    rw [hw2]; exact BitVec.eq_of_toNat_eq (by simp [wordN])
  have hcheck : tuneSwapCmd.check s m = none := by
    simp only [tuneSwapCmd, hmask, fTail_none r.tail, firstOf_none_cons, firstOf_nil]
  have hrow := row_served tuneSwapCmd "TUNE_SWAP" hs r r.len hcheck
  refine Eq.trans (b := row tuneSwapCmd "TUNE_SWAP" m s) rfl (hrow.trans ?_)
  simp only [tuneSwapCmd, hgs, htrunc, List.all_cons, List.all_nil, hclash, Bool.not_false, Bool.and_true, need_true, orElse]

/-- A swap of one group exchanges the banks of its owner and starts the copy of R152. -/
theorem applyChange_swap {s : State} {g : GrpId} {o : EngId} (ho : s.grp[g].owner = some o) (hlive : s.eng[o].st = .live)
    (hclash : s.tuneClash g = false) (ha : s.audOf g = none) :
    (applyChange (.swap (BitVec.ofNat 16 (2 ^ g.val)) none) false s).2 =
      (s.modEng o fun x => { x with bank := !x.bank }).modGrp g fun y => { y with copyTo := some (s.clk.tick + 2), copying := true } := by
  have hskip : s.swapSkips g = false := by
    simp only [State.swapSkips, hclash, ho, hlive, ne_eq, not_true_eq_false, decide_false, Bool.or_self]
  simp only [applyChange, swapMany, bitsOf_single (Nat.le_refl 16), List.filter_cons, hskip, Bool.not_false, if_true, List.filter_nil,
    List.foldl_cons, List.foldl_nil, swapGroup, tuned_of_noAudition ho ha]

/-- Settles O43: each command by its checks and its effect, the swap by what it schedules and by the change that it makes. -/
theorem tuneCommands : Obligations.TuneCommands := by
  unfold Obligations.TuneCommands
  intro s g o off n hs ho hlive hoff hn hclash
  refine ⟨tuneWrite_answers hs ho hlive hoff hn hclash, fun h l hobj hl h1 hcopy => ?_, fun h1 h26 => ?_, fun h1 h26 => ?_,
    fun m r hw2 => ?_, fun ha => ?_⟩
  · exact tuneWriteh_answers hs ho hlive hoff hn hclash hobj hl h1 hcopy
  · exact tuneRead_answers hs ho hlive hoff hn hclash false h1 h26
  · exact tuneRead_answers hs ho hlive hoff hn hclash true h1 h26
  · have hawait : Outside [.resp] s (awaitOwn m s) := outside_awaitOwn m s
    refine ⟨_, tuneSwap_waits hs hclash r hw2, ?_, ?_, ?_, ?_⟩
    · simp [awaitOwn, r.box, await]
    · simp
    · simp [awaitOwn, r.box, await, hs.answered]
    · exact (hawait.mono (by simp)).trans (((outside_schedule _ _ _).mono (by simp)).trans ((outside_refresh _).mono (by simp)))
  · intro t
    have ht : t = _ := applyChange_swap ho hlive hclash ha
    rw [ht]
    refine ⟨by simp, fun k hk => ?_, by simp, fun k hk => ?_, ?_⟩
    · exact vmod_ne _ _ _ _ hk
    · exact vmod_ne _ _ _ _ hk
    · exact ((outside_modEng s o _).mono (by simp)).trans ((outside_modGrp _ g _).mono (by simp))

end Sys2Proof.Machine
end

section
/-! The statement of 14 about the ENG commands that change a group's program: a direct start, a removal, and an audition with its end. -/
namespace Sys2Proof.Machine
open Sys2Proof

@[simp] theorem vmod_self (v : Vector α n) (i : Fin n) (f : α → α) : (vmod v i f)[i] = f v[i] := by simp

/-! ### Placement -/

/-- A direct start loads its engine and takes blocks in that engine's tile; every other engine keeps what it has. -/
theorem loadLive_effect {e : EngId} {g : GrpId} {p : Program} {s u : State} (h : loadLive e g p s = some u) :
    (∃ desc, u.eng = vmod s.eng e (Engine.load p.loading desc g)) ∧ Outside [.eng, .tile] s u := by
  simp only [loadLive] at h
  split at h
  · cases h
  · cases h
    exact ⟨⟨_, rfl⟩, ((outside_modEng s e _).mono (by simp)).trans ((outside_modTile _ _ _).mono (by simp))⟩

/-- An audition in place: the candidate is loaded, blocks of its tile are taken, and the group's audition waits for its start. -/
theorem placeAudition_effect {g : GrpId} {a : Audition} {l : Loading} {s u : State} (h : placeAudition g a l s = some u) :
    (∃ desc, u.eng = vmod s.eng a.cand (Engine.load l desc g)) ∧
    u.grp = vmod s.grp g (fun y => { y with aud := some { a with waiting := true } }) ∧ u.fw = s.fw ∧
    Outside [.eng, .tile, .grp] s u := by
  simp only [placeAudition] at h
  split at h
  · cases h
  · cases h
    refine ⟨⟨_, rfl⟩, rfl, rfl, ?_⟩
    exact ((outside_modEng s _ _).mono (by simp)).trans
      (((outside_modTile _ _ _).mono (by simp)).trans ((outside_modGrp _ _ _).mono (by simp)))

/-- What loading gives an engine. -/
theorem Engine.load_fields (l : Loading) (desc : Vector Desc 64) (g : GrpId) (x : Engine) :
    (Engine.load l desc g x).prog = l.info ∧ (Engine.load l desc g x).p = l.p ∧ (Engine.load l desc g x).par0 = l.a0 ∧
    (Engine.load l desc g x).par1 = l.a1 ∧ (Engine.load l desc g x).bank = l.bank ∧ (Engine.load l desc g x).st = x.st ∧
    (Engine.load l desc g x).grp = some g := by
  and_intros <;> rfl

section
variable {s : State} {g : GrpId} (hs : Serving s)

/-! ### What the requests read -/

/-- The fields of an ENG_START of a loaded object in a group that it names. -/
theorem engStart_fields {m : Msg} {h : Fin 8} {l : List Byte} (hobj : s.object (h.val + 1) .program = some l)
    (r : Request 0x0501 8 4 m s) (hw2 : mword m 2 = wordN (h.val + 1)) (hw3 : mword m 3 = wordN g.val) :
    s.objBytes (mfld 2 0 32 m) .program = l ∧ (∀ p, startGroup m p = g.val) ∧
    engStartCheck s m = firstOf [loadFail l s.clk.mrate.budget,
      need ((loaded l s.clk.mrate.budget).all fun p => decide (startGroup m p ≤ 15)) (eRange 3 0 0)] := by
  have hg := g.isLt
  have hhandle := mfld_whole hw2 (by omega)
  have hgrp := mfld_whole hw3 (by omega)
  refine ⟨by rw [hhandle, objBytes_eq hobj], fun p => ?_, ?_⟩
  · rw [startGroup, hgrp, if_neg (by omega)]
  · have h15 : decide (g.val ≤ 15) = true := decide_eq_true (by omega)
    simp only [engStartCheck, fHandle_none hw2, hhandle, needObject_none hobj, objBytes_eq hobj, hgrp, h15, Bool.true_or, need_true,
      fTail_none r.tail, firstOf_none_cons]

/-- Which crossfades a commit omits does not depend on the groups. -/
theorem omits_modGrp (f : Group → Group) (a : Audition) : (s.modGrp g f).omits a = s.omits a := rfl

/-- The fields of a request that names a group and nothing more: SAME, every criterion and limit at its default. -/
theorem audition_fields {m : Msg} (r : Request 0x0503 14 3 m s) (hw2 : mword m 2 = wordN g.val) :
    msgTarget m = g ∧ isSame m = true ∧ (∀ far e, audOfMsg m far e = { Audition.default .host e true with joined := far }) ∧
    engAuditionCmd.check s m = none := by
  have hg := g.isLt
  have hlow (lo k : Nat) (h4 : 4 ≤ lo) : mfld 2 lo k m = 0 := by
    have h16 : g.val < 2 ^ lo := Nat.lt_of_lt_of_le (n := g.val) (m := 2 ^ 4) hg (Nat.pow_le_pow_right (by decide) h4)
    rw [mfld_of_word hw2, Nat.mod_eq_of_lt (a := g.val) (by omega), Nat.div_eq_of_lt h16, Nat.zero_mod]
  have hword (w : Nat) (h3 : 3 ≤ w) (h14 : w < 14) : mword m w = 0 := r.tail w h3 (by have := r.len; omega)
  have hzero (w lo k : Nat) (h3 : 3 ≤ w) (h14 : w < 14) : mfld w lo k m = 0 := mfld_zero (hword w h3 h14) lo k
  have hcode (i : Nat) : critCode m i = 0 := hzero 7 _ _ (by decide) (by decide)
  have hbit : bit (mword m 2) 14 = false := bit_of_mfld (hlow 14 1 (by decide))
  have hsame : isSame m = true := by simp [isSame, hlow]
  refine ⟨?_, hsame, fun far e => ?_, ?_⟩
  · rw [msgTarget, mfld_of_word hw2]
    exact Fin.ext (by simp only [fin, Fin.val_ofNat]; omega)
  · simp [audOfMsg, hsame, audN, hzero, hlow, hbit, critOf, critLevel, hcode, Criteria.default, Audition.default, fin]
  · have hcodes : ∀ x ∈ (List.range 5).map fun i => fCode 7 (2 * i) 2 2 m, x = none := by simp [fCode, hzero]
    have hlimits : ∀ x ∈ (List.range 6).map fun j =>
        need (critCode m (limitCrit (8 + j)) = 2 || mword m (8 + j) = 0) (eReserved (8 + j) 0 0), x = none := by
      simp only [List.mem_map, List.mem_range]
      rintro x ⟨j, hj, rfl⟩
      rw [hword (8 + j) (by omega) (by omega)]
      simp
    have htail : fTail 14 m = none := fTail_none fun i h14 hi => r.tail i (by omega) hi
    refine firstOf_eq_none fun x hx => ?_
    simp only [audFields, List.mem_append, hsame, if_true, htail] at hx
    rcases hx with ((((hx | hx) | hx) | hx) | hx) | hx
    · simpa [fZero, fRange, fCode, hlow, hzero, audN] using hx
    · exact hcodes x hx
    · simpa [fZero, hzero] using hx
    · exact hlimits x hx
    · simpa using hx
    · simpa using hx

include hs

/-! ### ENG_START -/

theorem engStart_answers {h : Fin 8} {l : List Byte} {p : Program} {e : EngId} {u : State}
    (hobj : s.object (h.val + 1) .program = some l) (hp : loaded l s.clk.mrate.budget = some p) (hown : s.grp[g].owner = none)
    (hstart : s.starting.contains g = false) (hspare : s.directSpare = some e) (hlive : s.liveCount + s.starting.length < 16)
    (hu : loadLive e g p s = some u) :
    Answers .engStart 0x0501 8 4 s (fun m => mword m 2 = wordN (h.val + 1) ∧ mword m 3 = wordN g.val)
      (fun _ => [wordN e.val, s.clk.tick + 1]) (fun _ t =>
      t.fw.sched = s.fw.sched ++ [{ due := .next, change := .start g e }] ∧ t.eng[e].prog = p.info ∧ t.eng[e].p = p.p ∧
      t.eng[e].st = s.eng[e].st ∧ t.eng[e].grp = some g ∧ (∀ k : EngId, k ≠ e → t.eng[k] = s.eng[k]) ∧
      Outside [.resp, .fw, .eng, .tile] s t) := by
  refine answers_of_act engStartCmd (name := "ENG_START") hs (fun _ => rfl) fun m r ⟨hw2, hw3⟩ => ?_
  obtain ⟨hbytes, hgrp, hchecks⟩ := engStart_fields hobj r hw2 hw3
  have hload : loadFail l s.clk.mrate.budget = none := by
    simp only [loaded, loadFail] at hp ⊢
    split at hp <;> simp_all
  have hcheck : engStartCmd.check s m = none := by
    have h15 : decide (g.val ≤ 15) = true := decide_eq_true (by omega)
    simp only [engStartCmd, hchecks, hload, hp, Option.all_some, hgrp, h15, need_true, firstOf_none_cons, firstOf_nil]
  have hgfin : fin 16 (startGroup m p) = g := by rw [hgrp]; simp [fin]
  have hact : engStartCmd.act m none s = ok m [wordN e.val, s.clk.tick + 1] (schedule (.start g e) none u) := by
    simp only [engStartCmd, hbytes, hp, startProgram, hgfin, hown, Option.isSome_none, hstart, Bool.false_eq_true, or_self, if_false,
      hspare, Nat.not_le.mpr hlive, hu, State.boundary, Option.getD_none]
  obtain ⟨⟨desc, heng⟩, hout⟩ := loadLive_effect hu
  have hall : Outside [.eng, .tile, .fw] s (schedule (.start g e) none u) :=
    (hout.mono (by simp)).trans ((outside_schedule _ _ u).mono (by simp))
  refine ⟨r.len, hcheck, _, hact, hall.repliesAs, ?_⟩
  simp only [replied_frame, schedule_frame, schedule_next_sched, heng, vmod_self, Engine.load_fields, hout.sched_eq]
  exact ⟨trivial, rfl, rfl, trivial, trivial, fun k hk => vmod_ne _ _ _ _ hk,
    (hall.mono (by simp)).trans ((outside_replied _ _).mono (by simp))⟩

/-- An object that the loader rejects is answered with its check code and packet address. -/
theorem engStart_badObject {m : Msg} {h : Fin 8} {l : List Byte} {c a : Nat} (hobj : s.object (h.val + 1) .program = some l)
    (hbad : checkObject l s.clk.mrate.budget = .bad c a) (r : Request 0x0501 8 4 m s) (hw2 : mword m 2 = wordN (h.val + 1))
    (hw3 : mword m 3 = wordN g.val) :
    Completes (.engStart m) s fun t => t.fw.q[0] = s.fw.q[0] ++ [answer m 0x30 c [wordN a]] ∧ Outside [.resp] s t := by
  obtain ⟨-, -, hchecks⟩ := engStart_fields hobj r hw2 hw3
  refine refused_command (c := engStartCmd) (f := { status := 0x30, info := c, ws := [wordN a] }) hs rfl r r.len (.inl ?_)
  simp only [engStartCmd, hchecks, loadFail, hbad, firstOf_some_cons]

/-! ### Commands that name a group and schedule a change of it -/

/-- A command that schedules a change at the next boundary is answered with that boundary. -/
theorem schedules_answers {mk : Msg → Instr} {name : String} {len : Nat} {pre : Msg → Prop} (c : Cmd) (ch : Change) (u : State)
    {l : List Part} (hu : Outside l s u) (hf : Part.fw ∉ l) (hr : Part.resp ∉ l) (hl : Part.link ∉ l)
    (hexec : ∀ m, exec (mk m) s = row c name m s)
    (h : ∀ m, Request c.code len 3 m s → pre m → c.len m ≤ m.len.toNat ∧ c.check s m = none ∧
      c.act m none s = ok m [s.clk.tick + 1] (schedule ch none u)) :
    Answers mk c.code len 3 s pre (fun _ => [s.clk.tick + 1]) (fun _ t =>
      t.fw.sched = s.fw.sched ++ [{ due := .next, change := ch }] ∧ t.grp = u.grp ∧ Outside (.resp :: .fw :: l) s t) := by
  refine answers_of_act c hs hexec fun m r hpre => ?_
  obtain ⟨hlen, hcheck, hact⟩ := h m r hpre
  have hall : Outside (.fw :: l) s (schedule ch none u) := 
    (hu.mono fun _ => List.mem_cons_of_mem _).trans ((outside_schedule _ _ u).mono (by simp))
  exact ⟨hlen, hcheck, _, hact, hall.repliesAs (by simpa using hr) (by simpa using hl), by simp [hu.sched_eq hf], by simp,
    (hall.mono fun _ => List.mem_cons_of_mem _).trans ((outside_replied _ _).mono (by simp))⟩

theorem engRemove_answers (hown : s.grp[g].owner ≠ none) :
    Answers .engRemove 0x0502 8 3 s (fun m => mword m 2 = wordN g.val) (fun _ => [s.clk.tick + 1])
      (fun _ t => t.fw.sched = s.fw.sched ++ [{ due := .next, change := .remove g }] ∧ Outside [.resp, .fw] s t) := by
  intro m r hw2
  obtain ⟨t, ht, hq, hsched, -, hout⟩ := schedules_answers hs engRemoveCmd (name := "ENG_REMOVE") (mk := .engRemove) (.remove g) s
    (Outside.refl [] s) (by simp) (by simp) (by simp) (fun _ => rfl) (fun m r (hw2 : mword m 2 = wordN g.val) =>
      ⟨r.len, groupCheck_none hw2 r, by
        simp only [engRemoveCmd, msgGrp_eq hw2, Option.isSome_iff_ne_none.mpr hown, need_true, orElse, State.boundary,
          Option.getD_none]⟩) m r hw2
  exact ⟨t, ht, hq, hsched, hout⟩

theorem engRemove_unowned {m : Msg} (hown : s.grp[g].owner = none) (r : Request 0x0502 8 3 m s) (hw2 : mword m 2 = wordN g.val) :
    Completes (.engRemove m) s fun t => t.fw.q[0] = s.fw.q[0] ++ [answer m 0x20 0 []] ∧ Outside [.resp] s t :=
  denied_command (c := engRemoveCmd) hs rfl r r.len (.inr ⟨groupCheck_none hw2 r, by
    simp only [engRemoveCmd, msgGrp_eq hw2, hown, Option.isSome_none, need_false, orElse, eState]⟩)

theorem engAbort_answers (ha : s.audOf g ≠ none) :
    Answers .engAbort 0x0505 8 3 s (fun m => mword m 2 = wordN g.val) (fun _ => [s.clk.tick + 1])
      (fun _ t => t.fw.sched = s.fw.sched ++ [{ due := .next, change := .abort g 0 }] ∧ Outside [.resp, .fw] s t) := by
  intro m r hw2
  obtain ⟨t, ht, hq, hsched, -, hout⟩ := schedules_answers hs engAbortCmd (name := "ENG_ABORT") (mk := .engAbort) (.abort g 0) s
    (Outside.refl [] s) (by simp) (by simp) (by simp) (fun _ => rfl) (fun m r (hw2 : mword m 2 = wordN g.val) =>
      ⟨r.len, groupCheck_none hw2 r, by
        simp only [engAbortCmd, msgGrp_eq hw2, Option.isSome_iff_ne_none.mpr ha, need_true, orElse, State.boundary,
          Option.getD_none, atNext_eq_schedule]⟩) m r hw2
  exact ⟨t, ht, hq, hsched, hout⟩

theorem engAbort_noAudition {m : Msg} (ha : s.audOf g = none) (r : Request 0x0505 8 3 m s) (hw2 : mword m 2 = wordN g.val) :
    Completes (.engAbort m) s fun t => t.fw.q[0] = s.fw.q[0] ++ [answer m 0x20 0 []] ∧ Outside [.resp] s t :=
  denied_command (c := engAbortCmd) hs rfl r r.len (.inr ⟨groupCheck_none hw2 r, by
    simp only [engAbortCmd, msgGrp_eq hw2, ha, Option.isSome_none, need_false, orElse, eState]⟩)

/-- A confirmation outside a commit group, of a commit that omits no crossfade, is noted and schedules the commit. -/
theorem engConfirm_answers {a : Audition} (ha : s.audOf g = some a) (hpass : a.verdict = .pass) (hconf : a.confirm = true)
    (hnot : a.confirmed = false) (hgroup : a.cgroup = 0) (hfade : s.omits a = false) :
    Answers .engConfirm 0x0504 8 3 s (fun m => mword m 2 = wordN g.val) (fun _ => [s.clk.tick + 1])
      (fun _ t => t.grp[g] = { s.grp[g] with aud := some { a with confirmed := true } } ∧
        (∀ k : GrpId, k ≠ g → t.grp[k] = s.grp[k]) ∧
        t.fw.sched = s.fw.sched ++ [{ due := .next, change := .confirm g }] ∧ Outside [.resp, .fw, .grp] s t) := by
  intro m r hw2
  obtain ⟨t, ht, hq, hsched, hgrp, hout⟩ := schedules_answers hs engConfirmCmd (name := "ENG_CONFIRM") (mk := .engConfirm) (.confirm g)
    (s.modGrp g fun y => { y with aud := some { a with confirmed := true } })
    (outside_modGrp s g _) (by simp) (by simp) (by simp) (fun _ => rfl) (fun m r (hw2 : mword m 2 = wordN g.val) =>
      ⟨r.len, groupCheck_none hw2 r, by
        simp only [engConfirmCmd, msgGrp_eq hw2, confirmFail, ha, hpass, hconf, hnot, hgroup, omits_modGrp, hfade, confirm, orElse,
          ne_eq, not_true_eq_false, decide_false, decide_true, Bool.not_false, Bool.and_true, Bool.false_and, need_true, if_false, boolN,
          Bool.false_eq_true, ok, State.boundary, Option.getD_none, Nat.mul_zero, State.modGrp_frame]⟩) m r hw2
  refine ⟨t, ht, hq, ?_, fun k hk => ?_, hsched, hout.mono (by simp)⟩
  · simp only [hgrp, State.modGrp_at, vmod_self]
  · simp only [hgrp, State.modGrp_at]; exact vmod_ne _ _ _ _ hk

/-! ### ENG_AUDITION of SAME with the defaults -/

theorem engAudition_answers {o e : EngId} (ha : s.audOf g = none) (ho : s.grp[g].owner = some o)
    (hspare : s.tileSpare (tileOf o) = some e) :
    Answers .engAudition 0x0503 14 3 s (fun m => mword m 2 = wordN g.val ∧
        (placeAudition g (audOfMsg m s.link.tunnelled e) (s.eng[o]).loading s).isSome = true)
      (fun m => [wordN e.val, s.audBoundary m none]) (fun _ t =>
      t.grp[g].aud = some { Audition.default .host e true with joined := s.link.tunnelled } ∧ (∀ k : GrpId, k ≠ g → t.grp[k] = s.grp[k]) ∧
      t.eng[e].prog = s.eng[o].prog ∧ t.eng[e].par0 = s.eng[o].par0 ∧ t.eng[e].par1 = s.eng[o].par1 ∧
      t.eng[e].bank = s.eng[o].bank ∧ t.eng[e].st = s.eng[e].st ∧ (∀ k : EngId, k ≠ e → t.eng[k] = s.eng[k]) ∧
      t.fw.sched = s.fw.sched ++ [{ due := .next, change := .audition g }] ∧
      Outside [.resp, .fw, .eng, .tile, .grp] s t) := by
  refine answers_of_act engAuditionCmd (name := "ENG_AUDITION") hs (fun _ => rfl) fun m r ⟨hw2, hroom⟩ => ?_
  obtain ⟨htarget, hsame, haud, hcheck⟩ := audition_fields r hw2
  obtain ⟨u, hu⟩ := Option.isSome_iff_exists.mp hroom
  have hstate : audStateFail s m = none := by
    simp only [audStateFail, htarget, ha, ho, hsame, Option.isNone_none, Option.isSome_some, Bool.true_or, need_true, firstOf_none_cons,
      firstOf_nil]
  have hreq : s.request m = some (s.eng[o]).loading := by
    simp only [State.request, hsame, htarget, ho, if_true, Option.map_some]
  have hspare' : s.audSpare g = some e := by simp only [State.audSpare, ho, hspare]
  have hact : engAuditionCmd.act m none s = ok m [wordN e.val, s.audBoundary m none] (schedule (.audition g) none u) := by
    simp only [engAuditionCmd, hstate, orElse, audition, htarget, hreq, hspare', hu]
  obtain ⟨⟨desc, heng⟩, hgrp, -, hout⟩ := placeAudition_effect hu
  rw [show (audOfMsg m s.link.tunnelled e).cand = e from rfl] at heng
  have hall : Outside [.eng, .tile, .grp, .fw] s (schedule (.audition g) none u) :=
    (hout.mono (by simp)).trans ((outside_schedule _ _ u).mono (by simp))
  refine ⟨r.len, hcheck, _, hact, hall.repliesAs, ?_⟩
  simp only [replied_frame, schedule_frame, schedule_next_sched, heng, hgrp, vmod_self, Engine.load_fields, hout.sched_eq, haud]
  exact ⟨rfl, fun k hk => vmod_ne _ _ _ _ hk, rfl, rfl, rfl, rfl, trivial, fun k hk => vmod_ne _ _ _ _ hk, trivial,
    (hall.mono (by simp)).trans ((outside_replied _ _).mono (by simp))⟩

/-- A group whose audition is not over takes no other one. -/
theorem engAudition_busy {m : Msg} (ha : s.audOf g ≠ none) (r : Request 0x0503 14 3 m s) (hw2 : mword m 2 = wordN g.val) :
    Completes (.engAudition m) s fun t => t.fw.q[0] = s.fw.q[0] ++ [answer m 0x21 0 []] ∧ Outside [.resp] s t := by
  obtain ⟨htarget, -, -, hcheck⟩ := audition_fields r hw2
  have hbusy : (s.audOf g).isNone = false := by simpa using Option.isSome_iff_ne_none.mpr ha
  refine denied_command (c := engAuditionCmd) hs rfl r r.len (.inr ⟨hcheck, ?_⟩)
  simp only [engAuditionCmd, audStateFail, htarget, hbusy, need_false, firstOf_some_cons, orElse, eBusy]

end

/-- Settles O41: each command by what its checks read and by what its effect schedules. -/
theorem engCommands : Obligations.EngCommands := by
  unfold Obligations.EngCommands
  intro s g h hs
  refine ⟨fun l p e u hobj hp hown hstart hspare hlive hu => engStart_answers hs hobj hp hown hstart hspare hlive hu,
    fun l c a hobj hbad m r hw2 hw3 => engStart_badObject hs hobj hbad r hw2 hw3,
    engRemove_answers hs, fun hown m r hw2 => engRemove_unowned hs hown r hw2,
    fun o e ha ho hspare => engAudition_answers hs ha ho hspare, fun ha m r hw2 => engAudition_busy hs ha r hw2,
    fun a ha hpass hconf hnot hgroup hfade => engConfirm_answers hs ha hpass hconf hnot hgroup hfade,
    engAbort_answers hs, fun ha m r hw2 => engAbort_noAudition hs ha r hw2⟩

end Sys2Proof.Machine
end

section
/-! The statement of 06 about the events of auditions, crossfades, copies and restarts, one lemma for each row. -/
namespace Sys2Proof.Machine
open Sys2Proof

/-- A frame survives the end of the meaning. -/
theorem Outside.refreshed {l : List Part} {s t : State} (h : Outside l s t) : Outside l s (refresh t) :=
  h.trans ((outside_refresh t).mono (by simp))

section
variable {s : State} {g : GrpId} {a : Audition}

/-! ### AUDITION_PASS and AUDITION_TIMEOUT (R163, R167) -/

theorem outside_passEvent (g : GrpId) (s : State) : Outside [.events] s (passEvent g s) :=
  ((outside_free s _).mono (by simp)).trans (outside_raise _ _ _)

theorem auditionPass_completes (ha : s.audOf g = some a) (hrun : a.verdict = .running) (hn : a.n ≤ a.ran) (hw : a.waiting = false) :
    Completes (.auditionPass g) s fun t =>
      t.grp[g] = { s.grp[g] with aud := some { a with verdict := .pass } } ∧
      (∀ k : GrpId, k ≠ g → t.grp[k] = s.grp[k]) ∧
      t.fw.sched = s.fw.sched ++ (if !a.confirm ∧ a.cgroup = 0 then [{ due := .next, change := .confirm g }] else []) ∧
      Outside [.grp, .events, .fw] s t := by
  have hexec : exec (.auditionPass g) s = .next (refresh (
      let u := passEvent g (s.modGrp g fun y => { y with aud := some { a with verdict := .pass } })
      if !a.confirm ∧ a.cgroup = 0 then atNext (.confirm g) u else u)) := by
    simp only [exec, execAuditionPass, done, ha, hrun, hn, hw, Bool.not_false, and_self, if_true]
  refine ⟨_, hexec, ?_⟩
  have hgrp (u : State) : (passEvent g u).grp = u.grp := by simp [passEvent, State.freshMany]
  have hsched (u : State) : (passEvent g u).fw.sched = u.fw.sched := by simp [passEvent, State.freshMany]
  have hout (f : Group → Group) : Outside [.grp, .events, .fw] s (passEvent g (s.modGrp g f)) :=
    ((outside_modGrp s g f).mono (by simp)).trans ((outside_passEvent g _).mono (by simp))
  dsimp only
  split
  · simp only [atNext_eq_schedule, refresh_frame, schedule_frame, schedule_next_sched, hgrp, hsched, State.modGrp_at, State.modGrp_frame,
      vmod_self]
    exact ⟨trivial, fun k hk => vmod_ne _ _ _ _ hk, trivial,
      ((hout _).trans ((outside_schedule _ _ _).mono (by simp))).refreshed⟩
  · simp only [refresh_frame, hgrp, hsched, State.modGrp_at, State.modGrp_frame, vmod_self, List.append_nil]
    exact ⟨trivial, fun k hk => vmod_ne _ _ _ _ hk, trivial, (hout _).refreshed⟩

/-- A meaning that schedules a change at the next boundary and does nothing else. -/
theorem completes_atNext {i : Instr} {c : Change} (h : exec i s = .next (refresh (atNext c s))) :
    Completes i s fun t => t.fw.sched = s.fw.sched ++ [{ due := .next, change := c }] ∧ Outside [.fw] s t :=
  ⟨_, h, by simp [atNext_eq_schedule], (outside_schedule c none s).refreshed⟩

theorem auditionTimeout_completes (ha : s.audOf g = some a) (hpass : a.verdict = .pass) (hc : a.confirm = true)
    (hn : a.confirmed = false) :
    Completes (.auditionTimeout g) s fun t =>
      t.fw.sched = s.fw.sched ++ [{ due := .next, change := .abort g 3 }] ∧ Outside [.fw] s t :=
  completes_atNext (by
    simp only [exec, execAuditionTimeout, done, ha, hpass, hc, hn, Bool.not_false, and_self, if_true])

/-! ### AUDITION_START (R161, R172) -/

/-- The candidate as its start window finds it (R74, R34). -/
theorem inheritDescs_fields (tgt x : Engine) :
    (inheritDescs tgt x).st = x.st ∧ (inheritDescs tgt x).grp = x.grp ∧ (inheritDescs tgt x).regs = x.regs ∧
    (inheritDescs tgt x).prog = x.prog := by
  and_intros <;> rfl

theorem copyBanks_fields (tgt x : Engine) :
    (copyBanks tgt x).st = x.st ∧ (copyBanks tgt x).grp = x.grp ∧ (copyBanks tgt x).regs = x.regs ∧
    (copyBanks tgt x).prog = x.prog := by
  and_intros <;> rfl

theorem Engine.begin_fields (st : EngState) (g : GrpId) (x : Engine) :
    (x.begin st g).st = st ∧ (x.begin st g).grp = some g ∧ (x.begin st g).regs = .zero ∧ (x.begin st g).prog = x.prog := by
  and_intros <;> rfl

theorem Engine.startTick_fields (tick : Word) (x : Engine) :
    (x.startTick tick).st = x.st ∧ (x.startTick tick).grp = x.grp ∧ (x.startTick tick).regs = x.regs ∧
    (x.startTick tick).stopped = false ∧ (x.startTick tick).pc = BitVec.ofNat 14 x.prog.entry := by
  and_intros <;> rfl

/-- A loaded candidate becomes CANDIDATE of its group with cleared registers, whatever its target gives it; nothing else changes. -/
theorem startAudition_effect (ha : s.audOf g = some a) (hw : a.waiting = true) (hst : s.eng[a.cand].st = .spare) :
    ∃ x : Engine, startAudition g s = s.modEng a.cand (fun _ => x) ∧ x.st = .candidate ∧ x.grp = some g ∧ x.regs = .zero ∧
      x.prog = s.eng[a.cand].prog := by
  refine ⟨_, by simp only [startAudition, ha, hw, hst, and_self, if_true]; rfl, ?_⟩
  cases s.grp[g].owner with
  | none => exact Engine.begin_fields _ _ _
  | some o =>
    dsimp only
    split
    · simp only [inheritDescs_fields]
      split
      · simp only [copyBanks_fields]; exact Engine.begin_fields _ _ _
      · exact Engine.begin_fields _ _ _
    · exact Engine.begin_fields _ _ _

theorem auditionStart_due (ha : s.audOf g = some a) (hw : a.waiting = true) (hst : s.eng[a.cand].st = .spare)
    (hrun : s.clk.tickRun = true) (hcyc : s.clk.cyc = 0) (hdue : s.startDue g = true) :
    Completes (.auditionStart g) s fun t =>
      t.eng[a.cand].st = .candidate ∧ t.eng[a.cand].grp = some g ∧ t.eng[a.cand].regs = .zero ∧
      t.eng[a.cand].stopped = false ∧ t.eng[a.cand].pc = BitVec.ofNat 14 s.eng[a.cand].prog.entry ∧
      t.grp[g] = { s.grp[g] with aud := some { a with waiting := false } } ∧
      t.fw.sched = s.fw.sched.filter (fun x => !(decide (x.due = .next) && decide (x.change = .audition g))) ∧
      (∀ k : EngId, k ≠ a.cand → t.eng[k] = s.eng[k]) ∧ (∀ k : GrpId, k ≠ g → t.grp[k] = s.grp[k]) ∧
      Outside [.eng, .grp, .fw] s t := by
  let v : State := { s with fw.sched := s.fw.sched.filter fun e => !(e.due = .next && e.change = .audition g) }
  obtain ⟨x, hx, hxst, hxgrp, hxregs, hxprog⟩ := startAudition_effect (s := v) ha hw hst
  have hexec : exec (.auditionStart g) s = .next (refresh
      (((v.modEng a.cand fun _ => x).modEng a.cand (Engine.startTick s.clk.tick)).modGrp g (Group.audRuns a))) := by
    rw [← hx]
    simp only [exec, execAuditionStart, done, ha, hrun, hcyc, hdue, and_self, if_true, v]
  have hv : Outside [.fw] s v := outside_sched s _
  refine ⟨_, hexec, ?_⟩
  simp only [refresh_frame, State.modGrp_frame, State.modEng_frame, State.modEng_at, State.modGrp_at, vmod_vmod, vmod_self,
    Engine.startTick_fields, hxst, hxgrp, hxregs, hxprog, Group.audRuns]
  refine ⟨trivial, trivial, trivial, trivial, rfl, rfl, rfl, fun k hk => vmod_ne _ _ _ _ hk, fun k hk => vmod_ne _ _ _ _ hk, ?_⟩
  exact ((hv.mono (by simp)).trans (((outside_modEng v _ _).mono (by simp)).trans (((outside_modEng _ _ _).mono (by simp)).trans
    ((outside_modGrp _ _ _).mono (by simp))))).refreshed

theorem auditionStart_early (ha : s.audOf g = some a) (h : s.clk.tickRun = false ∨ s.clk.cyc ≠ 0 ∨ s.startDue g = false) :
    exec (.auditionStart g) s = .next (refresh s) := by
  have hno : ¬ (s.clk.tickRun = true ∧ s.clk.cyc = 0 ∧ s.startDue g = true) := by
    rintro ⟨hrun, hcyc, hdue⟩
    rcases h with h | h | h <;> simp_all
  simp only [exec, execAuditionStart, done, ha, if_neg hno]

/-! ### The fault restart (R172) -/

/-- The spare of a fault restart: one of its own tile, wherever there is one. -/
def State.restartSpare (s : State) (r : Restart) : Option EngId :=
  (s.tileSpare r.tile).or s.spares.head?

theorem mem_idx (i : Fin n) : i ∈ idx n := List.mem_ofFn.mpr ⟨i, rfl⟩

theorem mem_spares {e : EngId} : e ∈ s.spares ↔ s.eng[e].free = true := by simp only [State.spares, List.mem_filter, mem_idx, true_and]

theorem restartSpare_of_free (r : Restart) (h : ∃ k : EngId, s.eng[k].free = true) :
    ∃ e, s.restartSpare r = some e ∧ s.eng[e].free = true ∧
      ∀ k : EngId, tileOf k = r.tile → s.eng[k].free = true → tileOf e = r.tile := by
  unfold State.restartSpare
  cases ht : s.tileSpare r.tile with
  | some e =>
    have htile : tileOf e = r.tile := by simpa using List.find?_some ht
    exact ⟨e, rfl, mem_spares.mp (List.mem_of_find?_eq_some ht), fun _ _ _ => htile⟩
  | none =>
    have hnone := List.find?_eq_none.mp ht
    obtain ⟨k, hk⟩ := h
    cases hl : s.spares with
    | nil => have hmem := mem_spares.mpr hk; rw [hl] at hmem; cases hmem
    | cons e l =>
      refine ⟨e, rfl, mem_spares.mp (by simp [hl]), fun j hj hf => ?_⟩
      exact absurd hj (by simpa using hnone j (mem_spares.mpr hf))

/-- A program without delay lines finds room in any tile. -/
theorem placeAudition_noLines (a : Audition) (l : Loading) (hdl : l.info.dl = []) : ∃ u, placeAudition g a l s = some u := by
  simp only [placeAudition, hdl, inherits, placeLines, layLines, List.length_nil, List.range_zero, List.map_nil, List.zip_nil_left,
    TileMem.freeRun, freeRunOf, Nat.zero_add, Nat.reduceDiv, if_true, Option.map_some]
  exact ⟨_, rfl⟩

theorem startRestart_placed {r : Restart} {e : EngId} {u : State} (hr : s.grp[g].waiting = some r) (hfit : s.fits r.prog = true)
    (hage : (s.clk.tick - r.tick).toNat < 64) (hspare : s.restartSpare r = some e)
    (hu : placeAudition g (r.audition e) r.loading s = some u) :
    startRestart g s = atNext (.audition g) (countRestart g u) := by
  simp only [startRestart, hr, hfit, Bool.not_true, Bool.false_eq_true, if_false, hage, if_true]
  rw [State.restartSpare] at hspare
  cases ht : s.tileSpare r.tile with
  | some k =>
    simp only [ht, Option.some_or, Option.some.injEq] at hspare
    subst hspare
    simp only [hu]
  | none =>
    simp only [ht, Option.none_or] at hspare
    simp only [hspare, hu]

theorem restart_completes {r : Restart} (ha : s.audOf g = none) (hcapo : s.sup.restarting = false) (hr : s.grp[g].waiting = some r)
    (hdl : r.prog.dl = []) (hfit : s.fits r.prog = true) (hage : (s.clk.tick - r.tick).toNat < 64)
    (hfree : ∃ k : EngId, s.eng[k].free = true) :
    Completes (.auditionStart g) s fun t => ∃ a, t.grp[g].aud = some a ∧ a.use = .restart ∧ a.n = 256 ∧ a.k = 480 ∧
      a.confirm = false ∧ a.waiting = true ∧ s.eng[a.cand].free = true ∧ t.eng[a.cand].st = .spare ∧
      t.eng[a.cand].prog = r.prog ∧ (∀ k : EngId, k ≠ a.cand → tileOf k = r.tile → s.eng[k].free = true → tileOf a.cand = r.tile) ∧
      t.fw.sched = s.fw.sched ++ [{ due := .next, change := .audition g }] ∧
      t.grp[g].waiting = none ∧ (∀ k : EngId, k ≠ a.cand → t.eng[k] = s.eng[k]) ∧
      (∀ k : GrpId, k ≠ g → t.grp[k] = s.grp[k]) ∧ Outside [.eng, .tile, .grp, .fw] s t := by
  obtain ⟨e, hspare, hefree, htile⟩ := restartSpare_of_free r hfree
  obtain ⟨u, hu⟩ := placeAudition_noLines (s := s) (g := g) (r.audition e) r.loading hdl
  have hexec : exec (.auditionStart g) s = .next (refresh (atNext (.audition g) (countRestart g u))) := by
    simp only [exec, execAuditionStart, done, ha, hcapo, Bool.false_eq_true, if_false, startRestart_placed hr hfit hage hspare hu]
  obtain ⟨⟨desc, heng⟩, hgrp, hfw, hout⟩ := placeAudition_effect hu
  have hst : s.eng[e].st = .spare := by
    simp only [Engine.free, Bool.and_eq_true, decide_eq_true_eq] at hefree; exact hefree.1.1
  refine ⟨_, hexec, { r.audition e with waiting := true }, ?_⟩
  simp only [atNext_eq_schedule, countRestart, refresh_frame, schedule_frame, schedule_next_sched, State.modGrp_frame, State.modGrp_at,
    heng, hgrp, hfw, vmod_vmod, vmod_self, Restart.audition, Restart.loading, Audition.default, Engine.load_fields, hst]
  refine ⟨trivial, trivial, trivial, trivial, trivial, trivial, hefree, trivial, trivial, fun k _ hk hf => htile k hk hf, trivial,
    trivial, fun k hk => vmod_ne _ _ _ _ hk, fun k hk => vmod_ne _ _ _ _ hk, ?_⟩
  exact ((hout.mono (by simp)).trans (((outside_modGrp u g _).mono (by simp)).trans ((outside_schedule _ _ _).mono (by simp)))).refreshed

theorem restartExpiry_completes {r : Restart} (hr : s.grp[g].waiting = some r) (ha : s.audOf g = none)
    (hcapo : s.sup.restarting = false) (hage : 64 ≤ (s.clk.tick - r.tick).toNat) :
    Completes (.restartSpareWaitExpiry g) s fun t =>
      t.grp[g] = { s.grp[g] with waiting := none, givenUp := true } ∧ (∀ k : GrpId, k ≠ g → t.grp[k] = s.grp[k]) ∧
      Outside [.grp, .events] s t := by
  have hexec : exec (.restartSpareWaitExpiry g) s = .next (refresh (raise 0x8506 [wordN g.val, 2]
      (s.modGrp g fun y => { y with waiting := none, givenUp := true }))) := by
    simp only [exec, execRestartSpareWaitExpiry, done, hr, ha, hcapo, Option.isSome_none, Bool.or_self, Nat.not_lt.mpr hage, if_false]
  refine ⟨_, hexec, ?_⟩
  simp only [refresh_frame, raise_frame, State.modGrp_at, vmod_self]
  exact ⟨trivial, fun k hk => vmod_ne _ _ _ _ hk,
    (((outside_modGrp s g _).mono (by simp)).trans ((outside_raise _ _ _).mono (by simp))).refreshed⟩

/-! ### CROSSFADE_END (R63, R169) -/

theorem crossfadeEnd_inTick (h : s.clk.cyc ≠ 0) : exec (.crossfadeEnd g) s = .next (refresh s) := by
  simp only [exec, execCrossfadeEnd, done]
  split
  · rw [if_neg fun hc => h hc.2]
  · rfl

theorem Engine.retire_fields (x : Engine) :
    (x.faultDue = false → x.retire.st = .spare ∧ x.retire.grp = none) ∧ (x.faultDue = true → x.retire.st = .faulted) := by
  constructor <;> intro h <;> simp [Engine.retire, h, Engine.leave, Engine.fault]

/-- At its end a crossfade lets its outgoing engine go, and blocks in that engine's tile. -/
theorem endCrossfade_effect {f : Crossfade} {o : EngId} (hx : s.grp[g].xf = some f) (ho : f.outgoing = some o) :
    ∃ h, endCrossfade g s = ((s.modGrp g fun y => { y with xf := none }).modEng o Engine.retire).modTile f.tile h := by
  simp only [endCrossfade, hx, ho]
  exact ⟨_, rfl⟩

theorem crossfadeEnd_completes {f : Crossfade} {o : EngId} (hx : s.grp[g].xf = some f) (hk : f.k ≤ f.j) (hcyc : s.clk.cyc = 0)
    (ho : f.outgoing = some o) :
    Completes (.crossfadeEnd g) s fun t =>
      t.grp[g] = { s.grp[g] with xf := none } ∧
      (s.eng[o].faultDue = false → t.eng[o].st = .spare ∧ t.eng[o].grp = none) ∧
      (s.eng[o].faultDue = true → t.eng[o].st = .faulted) ∧
      (∀ k : EngId, k ≠ o → t.eng[k] = s.eng[k]) ∧ (∀ k : GrpId, k ≠ g → t.grp[k] = s.grp[k]) ∧
      (∀ k : TileId, k ≠ f.tile → t.tile[k] = s.tile[k]) ∧ Outside [.eng, .tile, .grp] s t := by
  obtain ⟨h, hend⟩ := endCrossfade_effect hx ho
  have hexec : exec (.crossfadeEnd g) s = .next (refresh (endCrossfade g s)) := by
    simp only [exec, execCrossfadeEnd, done, hx, hk, hcyc, and_self, if_true]
  rw [hend] at hexec
  refine ⟨_, hexec, ?_⟩
  obtain ⟨hspare, hfault⟩ := (s.eng[o]).retire_fields
  simp only [refresh_frame, State.modTile_frame, State.modTile_at, State.modEng_frame, State.modEng_at, State.modGrp_frame,
    State.modGrp_at, vmod_self]
  exact ⟨trivial, hspare, hfault, fun k hk => vmod_ne _ _ _ _ hk, fun k hk => vmod_ne _ _ _ _ hk, fun k hk => vmod_ne _ _ _ _ hk,
    (((outside_modGrp s g _).mono (by simp)).trans (((outside_modEng _ _ _).mono (by simp)).trans
      ((outside_modTile _ _ _).mono (by simp)))).refreshed⟩

/-! ### COMMIT_GROUP_READY (R170) -/

/-- A graph that waits here for a commit group has a frame for it. -/
theorem graphAt_unframed {n : Fin 16} (h : s.framed n = false) : s.graphAt n = none := by
  rw [State.graphAt, List.findSome?_eq_none_iff]
  intro x hx
  have hne := List.any_eq_false.mp h x hx
  obtain ⟨due, c⟩ := x
  cases c <;> cases due <;> simp_all
  case graph.frame p f i => cases p <;> simp_all

theorem commitGroupReady_exec {n : Fin 16} (hn : n ≠ 0) (hready : s.cgroupReady n = true) (hframe : s.framed n = false)
    (hothers : s.others n = []) :
    exec (.commitGroupReady n) s = .next (refresh (if s.waitsFrame n then s else atNext (.commitGroup n) s)) := by
  simp only [exec, execCommitGroupReady, done, groupReady, hn, if_false, graphAt_unframed hframe, hframe, Bool.false_eq_true, hothers,
    if_true, hready, true_and]
  cases s.waitsFrame n <;> rfl

/-! ### BANK_COPY_COMPLETE (R152) -/

/-- The copy of a group with an owner alone and no write that waits: the shadow array takes the live one, with its check bits. -/
def Engine.copyShadow (x : Engine) : Engine :=
  let y := x.wrotePar (!x.bank) 0 16384
  if y.bank then { y with par0 := y.par1 } else { y with par1 := y.par0 }

theorem Engine.copyShadow_arrays (x : Engine) :
    { x.copyShadow with dEcc := x.dEcc, dHold := x.dHold } =
      if x.bank then { x with par0 := x.par1 } else { x with par1 := x.par0 } := by
  cases h : x.bank <;> simp [Engine.copyShadow, Engine.wrotePar, h]

theorem Engine.copyShadow_bad (x : Engine) : ∀ y ∈ x.copyShadow.dEcc.bad, y ∈ x.dEcc.bad ∧
    ¬ (parKey (!x.bank) 0 ≤ y.1 ∧ y.1 < parKey (!x.bank) 0 + 16384) := by
  have hbad : x.copyShadow.dEcc = x.dEcc.wroteMany (parKey (!x.bank) 0) 16384 := by
    cases h : x.bank <;> simp [Engine.copyShadow, Engine.wrotePar, h]
  intro y hy
  simp only [hbad, EccState.wroteMany, List.mem_filter, Bool.or_eq_true, decide_eq_true_eq] at hy
  exact ⟨hy.1, by omega⟩

/-- Held writes of other groups stay as they are. -/
theorem foldl_heldTune_other {l : List (GrpId × Nat × List Half)} (h : ∀ x ∈ l, x.1 ≠ g) (u : State) :
    l.foldl (fun s x => if x.1 = g then tuneWrite g x.2.1 x.2.2 s else s) u = u := by
  induction l generalizing u with
  | nil => rfl
  | cons x l ih =>
    rw [List.foldl_cons, if_neg (h x (by simp))]
    exact ih (fun y hy => h y (by simp [hy])) u

theorem copyDone_eq {o : EngId} (hcopy : s.grp[g].copying = true) (ho : s.grp[g].owner = some o) (ha : s.audOf g = none)
    (hheld : ∀ h ∈ s.fw.heldTune, h.1 ≠ g) :
    copyDone g s = (s.modEng o Engine.copyShadow).modGrp g fun y => { y with copying := false } := by
  have hfilter : (s.fw.heldTune.filter fun h => h.1 ≠ g) = s.fw.heldTune :=
    List.filter_eq_self.mpr fun h hh => decide_eq_true (hheld h hh)
  simp only [copyDone, hcopy, if_true, tuned_of_noAudition ho ha, List.foldl_cons, List.foldl_nil, State.modGrp_frame, State.modEng_frame,
    foldl_heldTune_other hheld, hfilter]
  rfl

theorem bankCopyComplete_completes {o : EngId} (hcopy : s.grp[g].copying = true) (ho : s.grp[g].owner = some o) (ha : s.audOf g = none)
    (hheld : ∀ h ∈ s.fw.heldTune, h.1 ≠ g) :
    Completes (.bankCopyComplete g) s fun t =>
      { t.eng[o] with dEcc := s.eng[o].dEcc, dHold := s.eng[o].dHold } =
        (if s.eng[o].bank then { s.eng[o] with par0 := s.eng[o].par1 } else { s.eng[o] with par1 := s.eng[o].par0 }) ∧
      (∀ x ∈ t.eng[o].dEcc.bad, x ∈ s.eng[o].dEcc.bad ∧
        ¬ (parKey (!s.eng[o].bank) 0 ≤ x.1 ∧ x.1 < parKey (!s.eng[o].bank) 0 + 16384)) ∧
      t.grp[g] = { s.grp[g] with copying := false } ∧ (∀ k : EngId, k ≠ o → t.eng[k] = s.eng[k]) ∧
      (∀ k : GrpId, k ≠ g → t.grp[k] = s.grp[k]) ∧ Outside [.eng, .grp] s t := by
  have hexec : exec (.bankCopyComplete g) s = .next (refresh (copyDone g s)) := rfl
  rw [copyDone_eq hcopy ho ha hheld] at hexec
  refine ⟨_, hexec, ?_⟩
  simp only [refresh_frame, State.modGrp_frame, State.modGrp_at, State.modEng_frame, State.modEng_at, vmod_self]
  exact ⟨Engine.copyShadow_arrays _, Engine.copyShadow_bad _, trivial, fun k hk => vmod_ne _ _ _ _ hk,
    fun k hk => vmod_ne _ _ _ _ hk,
    (((outside_modEng s o _).mono (by simp)).trans ((outside_modGrp _ g _).mono (by simp))).refreshed⟩

/-! ### MAINTENANCE_MIGRATION (R392) -/

theorem outside_migrNext (s : State) (e : EngId) : Outside [.fw] s { s with fw.migrNext := e } :=
  outside_fw s _ rfl rfl rfl rfl rfl

theorem maintenanceMigration_completes (hh : s.fw.migrHours ≠ 0) (hcapo : s.sup.restarting = false) :
    Completes .maintenanceMigration s fun t =>
      t.fw.sched = s.fw.sched ++ [{ due := .next, change := .engTest s.fw.migrNext }] ∧
      t.fw.migrNext.val = (s.fw.migrNext.val + 1) % 20 ∧ Outside [.fw] s t := by
  have hexec : exec .maintenanceMigration s = .next (refresh
      { atNext (.engTest s.fw.migrNext) s with fw.migrNext := fin 20 (s.fw.migrNext.val + 1) }) := by
    simp only [exec, execMaintenanceMigration, done, hh, hcapo, Bool.false_eq_true, or_self, if_false]
  refine ⟨_, hexec, ?_, ?_, ((outside_schedule _ none s).trans (outside_migrNext _ _)).refreshed⟩
  · simp [atNext_eq_schedule]
  · simp [fin]

end

/-- Settles O40: the rows of auditions, crossfades, commit groups, copies, restarts and maintenance, each by its own lemma. -/
theorem auditionRows : Obligations.AuditionRows := by
  unfold Obligations.AuditionRows
  intro s g
  refine ⟨fun a ha hrun hn hw => auditionPass_completes ha hrun hn hw,
    fun a ha hw hst => ⟨fun hrun hcyc hdue => auditionStart_due ha hw hst hrun hcyc hdue, fun h => auditionStart_early ha h⟩,
    fun r ha hcapo hr hdl hfit hage hfree => restart_completes ha hcapo hr hdl hfit hage hfree,
    fun a ha hpass hc hn => auditionTimeout_completes ha hpass hc hn, crossfadeEnd_inTick,
    fun f o hx hk hcyc ho => crossfadeEnd_completes hx hk hcyc ho, fun n hn hready hframe hothers => ⟨fun hwaits => ?_, fun hwaits => ?_⟩,
    fun o hcopy ho ha hheld => bankCopyComplete_completes hcopy ho ha hheld,
    fun r hr ha hcapo hage => restartExpiry_completes hr ha hcapo hage,
    fun hh hcapo => maintenanceMigration_completes hh hcapo⟩
  · exact completes_atNext (by rw [commitGroupReady_exec hn hready hframe hothers, hwaits]; rfl)
  · rw [commitGroupReady_exec hn hready hframe hothers, hwaits]; rfl

end Sys2Proof.Machine
end

section
/-! The statement of 12 about graphs: what the manager sends touches the link alone, a plan is placed module by module, and the whole is
scheduled for one frame. -/
namespace Sys2Proof.Machine
open Sys2Proof

/-! ### What the manager sends -/

/-- A change of the link alone, which keeps the part that the device has in the segment, and for each transfer to another device the
device that it goes to. -/
structure SendsOnly (s t : State) : Prop where
  rest   : t = { s with link := t.link }
  active : t.link.active = s.link.active
  paired : t.link.paired = s.link.paired
  jobs   : t.link.jobs.map (·.pos) = s.link.jobs.map (·.pos)

namespace SendsOnly

theorem refl (s : State) : SendsOnly s s := ⟨rfl, rfl, rfl, rfl⟩

theorem trans {s t u : State} (h : SendsOnly s t) (k : SendsOnly t u) : SendsOnly s u where
  rest := calc
    u = { t with link := u.link } := k.rest
    _ = { ({ s with link := t.link } : State) with link := u.link } := by rw [← h.rest]
    _ = { s with link := u.link } := rfl
  active := k.active.trans h.active
  paired := k.paired.trans h.paired
  jobs := k.jobs.trans h.jobs

theorem foldl {f : State → α → State} (hf : ∀ s a, SendsOnly s (f s a)) (l : List α) (s : State) : SendsOnly s (l.foldl f s) := by
  induction l generalizing s with
  | nil => exact refl s
  | cons a l ih => exact (hf s a).trans (ih _)

theorem frame {s t : State} (h : SendsOnly s t) :
    t.fw = s.fw ∧ t.eng = s.eng ∧ t.tile = s.tile ∧ t.grp = s.grp ∧ t.clk = s.clk := by
  rw [h.rest]; exact ⟨rfl, rfl, rfl, rfl, rfl⟩

theorem outside {s t : State} (h : SendsOnly s t) : Outside [.link] s t := by
  rw [h.rest]; exact outside_link s t.link

end SendsOnly

/-- What is sent after an effect leaves its response where it was. -/
theorem RepliesAs.sends {s t u : State} (h : RepliesAs s t) (k : SendsOnly t u) : RepliesAs s u :=
  ⟨by rw [k.frame.1]; exact h.queue, by rw [k.frame.1]; exact h.line, k.active.trans h.active, k.paired.trans h.paired⟩

theorem sendsOnly_sendOwn (d : Fin 32) (box : BoxId) (code : Nat) (f : Option Word) (ws : List Word) (s : State) :
    SendsOnly s (sendOwn d box code f ws s) := ⟨rfl, rfl, rfl, rfl⟩

theorem sendsOnly_sendBatch (d : Fin 32) (f : Word) (n : Fin 16) (l : List BatchEntry) (s : State) :
    SendsOnly s (sendBatch d f n l s) := ⟨rfl, rfl, rfl, rfl⟩

theorem sendsOnly_sendRoutes (f : Word) (on : Bool) (p : GraphPlan) (s : State) : SendsOnly s (sendRoutes f on p s) := by
  refine SendsOnly.foldl (fun s d => ?_) _ s
  split
  · exact .refl s
  · exact SendsOnly.foldl (fun s b => sendsOnly_sendBatch d f p.cgroup b s) _ s

theorem sendsOnly_sendRemoves (f : Word) (p : GraphPlan) (s : State) : SendsOnly s (sendRemoves f p s) := by
  refine SendsOnly.foldl (fun s x => ?_) _ s
  split
  · exact .refl s
  · exact sendsOnly_sendOwn _ _ _ _ _ s

/-- A transfer that opens stays one to the same device. -/
theorem jobs_set_pos (l : List Deploy) (j : Deploy) (k : Option Nat) :
    (l.set (l.findIdx fun i => i = j) { j with opened := k }).map (·.pos) = l.map (·.pos) := by
  rw [List.map_set]
  by_cases h : (l.findIdx fun i => i = j) < l.length
  · have hj : l[l.findIdx fun i => i = j] = j := by simpa using List.findIdx_getElem (w := h)
    refine List.ext_getElem (by simp) fun i hi _ => ?_
    rw [List.getElem_set]
    split
    · next he => subst he; rw [List.getElem_map, hj]
    · rfl
  · rw [List.set_eq_of_length_le (by simpa only [List.length_map] using Nat.not_lt.mp h)]

theorem sendsOnly_openNext (s : State) : SendsOnly s (openNext s) := by
  refine SendsOnly.foldl (fun s j => ?_) _ s
  split
  · exact .refl s
  · exact ⟨rfl, rfl, rfl, jobs_set_pos s.link.jobs j _⟩

/-! ### A plan in place (R338) -/

/-- The start of a module's audition at the next boundary. -/
def startOf (x : Fin 32 × GrpId × EngId) : Sched := { due := .next, change := .audition x.2.1 }

/-- What the placement of some modules does: those here are loaded and start at the next boundary, those elsewhere are on their way. -/
structure Places (l : List (Fin 32 × GrpId × EngId)) (s u : State) : Prop where
  link    : u.link = { s.link with jobs := u.link.jobs }
  fw      : u.fw = { s.fw with sched := s.fw.sched ++ (l.filter fun x => s.isMe x.1.val).map startOf }
  jobs    : ∀ j ∈ s.link.jobs, j ∈ u.link.jobs
  away    : ∀ x ∈ l, s.isMe x.1.val = false → ∃ j ∈ u.link.jobs, j.pos = x.1
  outside : Outside [.fw, .link, .eng, .tile, .grp] s u

theorem Places.nil (s : State) : Places [] s s := ⟨rfl, by simp, fun _ h => h, by simp, .refl _ s⟩

theorem Places.isMe {l : List (Fin 32 × GrpId × EngId)} {s u : State} (h : Places l s u) (p : Nat) : u.isMe p = s.isMe p := by
  have hpos : u.link.pos = s.link.pos := by rw [h.link]
  rw [State.isMe, State.isMe, hpos]

theorem Places.repliesAs {l : List (Fin 32 × GrpId × EngId)} {s u : State} (h : Places l s u) : RepliesAs s u :=
  ⟨by rw [h.fw], by rw [h.fw], by rw [h.link], by rw [h.link]⟩

theorem Places.cons {x : Fin 32 × GrpId × EngId} {l : List (Fin 32 × GrpId × EngId)} {s t u : State} (h : Places [x] s t)
    (k : Places l t u) : Places (x :: l) s u where
  link := by rw [k.link, h.link]
  fw := by
    have hme : (fun y : Fin 32 × GrpId × EngId => t.isMe y.1.val) = fun y => s.isMe y.1.val := funext fun y => h.isMe _
    rw [k.fw, h.fw, hme, List.append_assoc, ← List.map_append, ← List.filter_append, List.singleton_append]
  jobs := fun j hj => k.jobs j (h.jobs j hj)
  away := by
    intro y hy hme
    rcases List.mem_cons.mp hy with rfl | hy
    · obtain ⟨j, hj, hpos⟩ := h.away y (by simp) hme
      exact ⟨j, k.jobs j hj, hpos⟩
    · exact k.away y hy (by rw [h.isMe]; exact hme)
  outside := h.outside.trans k.outside

theorem placeOne_places {g : List Byte} {n : Fin 16} {i : Nat} {x : Fin 32 × GrpId × EngId} {s u : State}
    (h : placeOne g n i x s = some u) : Places [x] s u := by
  unfold placeOne at h
  split at h
  · next hme =>
    split at h
    · cases h
    · obtain ⟨v, hv, rfl⟩ := Option.map_eq_some_iff.mp h
      obtain ⟨-, -, hfw, hout⟩ := placeAudition_effect hv
      have hlink : v.link = s.link := hout .link (by simp)
      exact {
        link := by simp only [atNext_eq_schedule, schedule_frame, hlink]
        fw := by simp only [atNext, hfw, List.filter_cons, hme, if_true, List.filter_nil, List.map_cons, List.map_nil, startOf]
        jobs := by simp only [atNext_eq_schedule, schedule_frame, hlink]; exact fun _ hj => hj
        away := by simp [hme]
        outside := (hout.mono (by simp)).trans ((outside_schedule _ none v).mono (by simp)) }
  · next hme =>
    cases h
    exact {
      link := rfl
      fw := by simp [hme]
      jobs := fun j hj => by simp [hj]
      away := by simp
      outside := (outside_link s _).mono (by simp) }

theorem placePlan_places {g : List Byte} {n : Fin 16} {l : List (Nat × Fin 32 × GrpId × EngId)} {s u : State}
    (h : placePlan g n l s = some u) : Places (l.map (·.2)) s u := by
  induction l generalizing s with
  | nil => cases h; exact .nil _
  | cons x l ih =>
    simp only [placePlan] at h
    split at h
    · next t ht => exact (placeOne_places ht).cons (ih h)
    · cases h

/-! ### GRAPH_SUBMIT -/

/-- A number of the model's own below 2^16. -/
theorem freeHalf_lt (n : Nat) : (Config.freeWord n &&& 0xFFFF).toNat < 65536 := by
  rw [BitVec.toNat_and]
  exact Nat.lt_of_le_of_lt Nat.and_le_right (by decide)

/-- What sending the map of a graph and its schedule does to the firmware's state. -/
def graphQueued (h : Half) (f : Word) (p : GraphPlan) (s : State) : State :=
  schedule (.graph (some p)) (some f)
    { s with free := s.free + 1 + 1, fw.outHandle := h.toNat, fw.bulkOut := s.fw.bulkOut ++ fragments h p.map.length 0 p.map }

theorem outside_graphQueued (h : Half) (f : Word) (p : GraphPlan) (s : State) : Outside [.fw] s (graphQueued h f p s) :=
  ((outside_free s _).mono (by simp)).trans (outside_fw _ _ rfl rfl rfl rfl rfl)

/-- The devices of a segment with what a plan leaves them. -/
def leaveFree (inv : List (Nat × DevFree)) (s : State) : State :=
  { s with link.members := s.link.members.map fun y => { y with free := ((inv.find? fun d => d.1 = y.pos).map (·.2)).getD y.free } }

theorem sendsOnly_leaveFree (inv : List (Nat × DevFree)) (s : State) : SendsOnly s (leaveFree inv s) := ⟨rfl, rfl, rfl, rfl⟩

/-- A graph with room: the handle of its map, the frame and the number of the model's own in it, and the state that is answered. -/
theorem graphSubmit_placed {m : Msg} {s u : State} {l : List Byte} {n : Fin 16} {x : Wiring}
    (hobj : s.objBytes (mfld 2 0 32 m) .graph = l) (hn : s.freeCgroup = some n)
    (hx : planGraph l n s.clk.mrate.budget (s.linkChannels 0) s.link.grants s.inventoryFree = some x)
    (hu : placePlan l x.plan.cgroup ((List.range x.plan.mods.length).zip x.plan.mods) s = some u) :
    ∃ (h : Half) (f more : Word), more.toNat < 65536 ∧
      f = u.sendFrame 0 + BitVec.ofNat 32 (1090 + (l.length + 8 * s.routeCount x.plan) / 8) + more ∧
      graphSubmit m none s = ok m [h.zeroExtend 32, f]
        (openNext (sendRoutes f true x.plan (graphQueued h f x.plan (leaveFree x.inv u)))) := by
  refine ⟨(Config.freeWord (u.free + 1)).truncate 16, _, _, freeHalf_lt u.free, rfl, ?_⟩
  simp only [graphSubmit, hobj, hn, Option.bind_some, hx, hu, Option.any_none, Bool.false_eq_true, if_false, graphFrame, sendBulk,
    State.fresh, graphQueued, leaveFree]
  rfl

section
variable {s : State} {h : Fin 8} {l : List Byte} (hs : Serving s) (hobj : s.object (h.val + 1) .graph = some l)
  (hl : firstOf (graphFails l s.clk.mrate.budget) = none)
include hobj hl

/-- A graph's object passes the checks of GRAPH_SUBMIT, and the command carries no frame. -/
theorem graphSubmit_checked {m : Msg} (r : Request 0x0901 8 3 m s) (hw2 : mword m 2 = wordN (h.val + 1)) :
    s.objBytes (mfld 2 0 32 m) .graph = l ∧ graphSubmitCmd.check s m = none ∧
    graphSubmitCmd.act m none s =
      orElse m (need (s.member && s.link.active && s.link.pos.isSome) (.of eNotActive)) (graphSubmit m none) s := by
  have hhandle := mfld_whole hw2 (by omega)
  refine ⟨by rw [hhandle, objBytes_eq hobj], ?_, ?_⟩
  · simp only [graphSubmitCmd, fHandle_none hw2, hhandle, needObject_none hobj, objBytes_eq hobj, fTail_none r.tail, firstOf_none_cons,
      firstOf_nil, hl]
  · simp only [graphSubmitCmd, farFrame, r.plain.1, Bool.not_false, Bool.true_or, need_true]
    cases need (s.member && s.link.active && s.link.pos.isSome) (.of eNotActive) <;> rfl

include hs

theorem graphSubmit_completes {n : Fin 16} {x : Wiring} {u : State} {m : Msg} (hpos : s.link.pos ≠ none) (hmem : s.member = true)
    (hact : s.link.active = true) (hn : s.freeCgroup = some n)
    (hx : planGraph l n s.clk.mrate.budget (s.linkChannels 0) s.link.grants s.inventoryFree = some x)
    (hu : placePlan l x.plan.cgroup ((List.range x.plan.mods.length).zip x.plan.mods) s = some u)
    (r : Request 0x0901 8 3 m s) (hw2 : mword m 2 = wordN (h.val + 1)) :
    Completes (.graphSubmit m) s fun t => ∃ bulk f more : Word,
      f = s.sendFrame 0 + BitVec.ofNat 32 (1090 + (l.length + 8 * s.routeCount x.plan) / 8) + more ∧ more.toNat < 65536 ∧
      t.fw.q[0] = s.fw.q[0] ++ [answer m 0 0 [bulk, f]] ∧
      t.fw.bulkOut = s.fw.bulkOut ++ fragments (bulk.truncate 16) x.plan.map.length 0 x.plan.map ∧
      t.fw.sched = s.fw.sched ++ ((x.plan.here s).map fun g => { due := .next, change := .audition g })
        ++ [{ due := .frame f none, change := .graph (some x.plan) }] ∧
      (∀ y ∈ x.plan.mods, s.isMe y.1.val = false → ∃ j ∈ t.link.jobs, j.pos = y.1) ∧
      t.eng = u.eng ∧ t.tile = u.tile ∧ t.grp = u.grp ∧ Outside [.resp, .fw, .link, .eng, .tile, .grp] s t := by
  obtain ⟨hbytes, hcheck, hrun⟩ := graphSubmit_checked hobj hl r hw2
  obtain ⟨bulk, f, more, hmore, hf, hsub⟩ := graphSubmit_placed hbytes hn hx hu
  have hplaces : Places x.plan.mods s u := by
    have hp := placePlan_places hu
    rwa [List.map_snd_zip (by simp)] at hp
  have hframe : u.sendFrame 0 = s.sendFrame 0 := by
    have hclk : u.clk = s.clk := hplaces.outside .clk (by simp)
    have hout : u.link.schedOut = s.link.schedOut := by rw [hplaces.link]
    rw [State.sendFrame, State.sendFrame, hclk, hout]
  rw [hframe] at hf
  generalize hv : graphQueued bulk f x.plan (leaveFree x.inv u) = v at hsub
  have hsent : SendsOnly v (openNext (sendRoutes f true x.plan v)) :=
    (sendsOnly_sendRoutes f true x.plan v).trans (sendsOnly_openNext _)
  have hleave : Outside [.fw, .link, .eng, .tile, .grp] s (leaveFree x.inv u) :=
    hplaces.outside.trans ((sendsOnly_leaveFree x.inv u).outside.mono (by simp))
  have hqueued : Outside [.fw, .link, .eng, .tile, .grp] s v := by
    rw [← hv]; exact hleave.trans ((outside_graphQueued _ _ _ _).mono (by simp))
  have hreplies : RepliesAs s v := by
    obtain ⟨hq, hline, hactive, hpaired⟩ := hplaces.repliesAs
    rw [← hv]; exact ⟨hq, hline, hactive, hpaired⟩
  have hgraph : graphSubmitCmd.act m none s =
      ok m [bulk.zeroExtend 32, f] (openNext (sendRoutes f true x.plan v)) := by
    rw [hrun, hmem, hact, Option.isSome_iff_ne_none.mpr hpos]
    exact hsub
  have hrow := row_served graphSubmitCmd "GRAPH_SUBMIT" hs r r.len hcheck
  rw [hgraph, ok, hs.respond_eq r.box (hreplies.sends hsent)] at hrow
  obtain ⟨hfw, heng, htile, hgrp, -⟩ := hsent.frame
  refine ⟨_, hrow, bulk.zeroExtend 32, f, more, hf, hmore, ?_, ?_, ?_, ?_, ?_, ?_, ?_, ?_⟩
  · rw [replied_queue, (hreplies.sends hsent).queue]
  · have htrunc : (bulk.zeroExtend 32).truncate 16 = bulk := by simp
    have hbulk : v.fw.bulkOut = s.fw.bulkOut ++ fragments bulk x.plan.map.length 0 x.plan.map := by
      simp only [← hv, graphQueued, schedule_frame, leaveFree, hplaces.fw]
    simp only [replied_frame, hfw, htrunc, hbulk]
  · have hsched : v.fw.sched = s.fw.sched ++ (x.plan.mods.filter fun x => s.isMe x.1.val).map startOf
        ++ [{ due := .frame f none, change := .graph (some x.plan) }] := by
      simp only [← hv, graphQueued, schedule_frame_sched, leaveFree, hplaces.fw]
    simp only [replied_frame, hfw, hsched, GraphPlan.here, List.map_map]
    rfl
  · intro y hy hme
    obtain ⟨j, hj, hjpos⟩ := hplaces.away y hy hme
    have hmem : y.1 ∈ v.link.jobs.map (·.pos) := by rw [← hv]; exact List.mem_map.mpr ⟨j, hj, hjpos⟩
    rw [← hsent.jobs] at hmem
    simpa using hmem
  · simp only [replied_frame, heng]; rw [← hv]; rfl
  · simp only [replied_frame, htile]; rw [← hv]; rfl
  · simp only [replied_frame, hgrp]; rw [← hv]; rfl
  · exact ((hqueued.trans (hsent.outside.mono (by simp))).mono (by simp)).trans ((outside_replied _ _).mono (by simp))

/-- A graph that finds no commit group, no room for a module or no channel changes nothing. -/
theorem graphSubmit_noRoom {m : Msg} (hpos : s.link.pos ≠ none) (hmem : s.member = true) (hact : s.link.active = true)
    (hno : ∀ n, s.freeCgroup = some n →
      planGraph l n s.clk.mrate.budget (s.linkChannels 0) s.link.grants s.inventoryFree = none)
    (r : Request 0x0901 8 3 m s) (hw2 : mword m 2 = wordN (h.val + 1)) :
    Completes (.graphSubmit m) s fun t => t.fw.q[0] = s.fw.q[0] ++ [answer m 0x22 0 []] ∧ Outside [.resp] s t := by
  obtain ⟨hbytes, hcheck, hrun⟩ := graphSubmit_checked hobj hl r hw2
  refine denied_command (c := graphSubmitCmd) hs rfl r r.len (.inr ⟨hcheck, ?_⟩)
  rw [hrun, hmem, hact, Option.isSome_iff_ne_none.mpr hpos]
  have hnone := Option.bind_eq_none_iff.mpr hno
  simp only [Bool.and_self, need_true, orElse, graphSubmit, hbytes, hnone, deny, eResource]

theorem graphSubmit_notActive {m : Msg} (hno : s.member = false ∨ s.link.active = false) (r : Request 0x0901 8 3 m s)
    (hw2 : mword m 2 = wordN (h.val + 1)) :
    Completes (.graphSubmit m) s fun t => t.fw.q[0] = s.fw.q[0] ++ [answer m 0x24 0 []] ∧ Outside [.resp] s t := by
  obtain ⟨-, hcheck, hrun⟩ := graphSubmit_checked hobj hl r hw2
  have hfalse : (s.member && s.link.active && s.link.pos.isSome) = false := by rcases hno with h | h <;> simp [h]
  refine denied_command (c := graphSubmitCmd) hs rfl r r.len (.inr ⟨hcheck, ?_⟩)
  rw [hrun, hfalse]; rfl

end

/-! ### GRAPH_CLEAR -/

/-- GRAPH_CLEAR without a frame: the manager's part, and a graph that is there. -/
theorem graphClear_act {s : State} {m : Msg} (hmem : s.member = true) (hact : s.link.active = true) (r : Request 0x0902 8 2 m s) :
    graphClearCmd.check s m = none ∧
    graphClearCmd.act m none s = orElse m (need s.link.graph.isSome (.of eState)) (graphClearAt m none) s := by
  refine ⟨fTail_none r.tail, ?_⟩
  simp only [graphClearCmd, farFrame, hmem, hact, r.plain.1, Bool.not_false, Bool.true_or, Bool.and_self, need_true, firstOf_none_cons]
  cases need s.link.graph.isSome (.of eState) <;> rfl

theorem graphClear_completes {s : State} {m : Msg} (hs : Serving s) (hmem : s.member = true) (hact : s.link.active = true)
    (hgraph : s.link.graph ≠ none) (r : Request 0x0902 8 2 m s) :
    Completes (.graphClear m) s fun t => ∃ f more : Word, f = s.sendFrame (s.clearCount - 1) + 64 + more ∧ more.toNat < 65536 ∧
      t.fw.q[0] = s.fw.q[0] ++ [answer m 0 0 [f]] ∧
      t.fw.sched = s.fw.sched ++ [{ due := .frame f none, change := .graph none }] ∧ Outside [.resp, .fw, .link] s t := by
  obtain ⟨p, hp⟩ := Option.ne_none_iff_exists'.mp hgraph
  obtain ⟨hcheck, hrun⟩ := graphClear_act hmem hact r
  generalize hmore : Config.freeWord s.free &&& 0xFFFF = more
  generalize hf : s.sendFrame (s.clearCount - 1) + 64 + more = f
  let v : State := { s with free := s.free + 1 }
  have hsent : SendsOnly v (sendRoutes f false p (sendRemoves f p v)) :=
    (sendsOnly_sendRemoves f p v).trans (sendsOnly_sendRoutes f false p _)
  have hclear : graphClearCmd.act m none s =
      ok m [f] (schedule (.graph none) (some f) (sendRoutes f false p (sendRemoves f p v))) := by
    simp only [hrun, hp, Option.isSome_some, need_true, orElse, graphClearAt, State.pickFrame, State.fresh, hmore, hf, v]
  have hfw : (sendRoutes f false p (sendRemoves f p v)).fw = s.fw := hsent.frame.1
  have hreplies : RepliesAs s (schedule (.graph none) (some f) (sendRoutes f false p (sendRemoves f p v))) :=
    ⟨by simp [hfw], by simp [hfw], by simpa using hsent.active, by simpa using hsent.paired⟩
  have hrow := row_served graphClearCmd "GRAPH_CLEAR" hs r r.len hcheck
  rw [hclear, ok, hs.respond_eq r.box hreplies] at hrow
  refine ⟨_, hrow, f, more, hf.symm, hmore ▸ freeHalf_lt _, ?_, ?_, ?_⟩
  · rw [replied_queue, hreplies.queue]
  · simp [hfw]
  · exact ((outside_free s _).mono (by simp)).trans ((hsent.outside.mono (by simp)).trans
      (((outside_schedule _ _ _).mono (by simp)).trans ((outside_replied _ _).mono (by simp))))

theorem graphClear_noGraph {s : State} {m : Msg} (hs : Serving s) (hmem : s.member = true) (hact : s.link.active = true)
    (hgraph : s.link.graph = none) (r : Request 0x0902 8 2 m s) :
    Completes (.graphClear m) s fun t => t.fw.q[0] = s.fw.q[0] ++ [answer m 0x20 0 []] ∧ Outside [.resp] s t := by
  obtain ⟨hcheck, hrun⟩ := graphClear_act hmem hact r
  refine denied_command (c := graphClearCmd) hs rfl r r.len (.inr ⟨hcheck, ?_⟩)
  rw [hrun, hgraph]; rfl

/-- Settles O49: a submitted graph by the placement of its plan and by what is sent for it, a cleared one by what is sent, and the refusals
by the first state check that fails. -/
theorem graphCommands : Obligations.GraphCommands := by
  unfold Obligations.GraphCommands
  intro s h l hs hobj hl hpos plan
  exact ⟨fun n x u hmem hact hn hx hu m r hw2 => graphSubmit_completes hs hobj hl hpos hmem hact hn hx hu r hw2,
    fun hmem hact hno m r hw2 => graphSubmit_noRoom hs hobj hl hpos hmem hact hno r hw2,
    fun hno m r hw2 => graphSubmit_notActive hs hobj hl hno r hw2,
    fun hmem hact hgraph m r => graphClear_completes hs hmem hact hgraph r,
    fun hmem hact hgraph m r => graphClear_noGraph hs hmem hact hgraph r⟩

end Sys2Proof.Machine
end
